-- ==== Sys2Proof/Word.lean ====
section
/-! DEFINITION. The data widths of the core (00_scope.md R4, R7): a byte, a 16-bit address, and the form in
which a byte store is held. -/

namespace Sys2Proof

/-- A byte: every general register and every memory location (00_scope.md R4). -/
abbrev Byte := BitVec 8

/-- A 16-bit address; the program counter has the same width (00_scope.md R4). -/
abbrev Addr := BitVec 16

/-- The contents of one backing store of the Bus, by offset from the store's base (20_memory.md R32, R36): a list
of offset and byte pairs in the canonical form `Memory.wf` of Machine/Memory.lean. -/
abbrev Memory := List Host.Cell

end Sys2Proof
end

