-- ==== Sys2Proof/Syntax.lean ====
section
/-! DEFINITION. The syntax of instructions: the operations, the addressing modes, the rows of an opcode table, and
`Instr`, one constructor per row of spec/opcode_table.json and one per ZeroPage,Y form (93_implementation_defined.md
U18). The operand suffixes: Imm Immediate, Zp ZeroPage, Zpx ZeroPage,X, Zpy ZeroPage,Y, Abs Absolute, Absx Absolute,X,
Absy Absolute,Y, Indx IndirectIndexedX, Indy IndirectIndexedY, Acc Accumulator. -/

namespace Sys2Proof

/-- The 23 operations of the closed set (00_scope.md R1, 30_encoding.md R59). -/
inductive Operation where
  | adc | and | asl | bit
  | bcc | bcs | beq | bne | bmi | bpl | bvc | bvs
  | clc | cld | cli | clv
  | cmp | cpx | cpy
  | inx | iny | dex | dey
deriving DecidableEq, Repr

/-- The three instruction formats (30_encoding.md R55): zero, one or two operand bytes after the opcode byte. -/
inductive Format where
  | f1 | f2 | f3
deriving DecidableEq, Repr

/-- The addressing-mode class of an opcode, as the Decoder's record holds it (30_encoding.md R56, R57). -/
inductive ModeClass where
  | implied | accumulator | immediate
  | zeroPage | zeroPageX | zeroPageY
  | absolute | absoluteX | absoluteY
  | indirectX | indirectY
  | relative
deriving DecidableEq, Repr

/-- The format each mode class has (30_encoding.md R57). -/
def ModeClass.format : ModeClass → Format
  | .implied | .accumulator => .f1
  | .immediate | .zeroPage | .zeroPageX | .zeroPageY | .indirectX | .indirectY | .relative => .f2
  | .absolute | .absoluteX | .absoluteY => .f3

/-- The memory addressing modes with their operand bytes assembled (40_step_and_addressing.md R83 to R90). -/
inductive MemMode where
  | zeroPage (v : Byte)
  | zeroPageX (v : Byte)
  | zeroPageY (v : Byte)
  | absolute (w : Addr)
  | absoluteX (w : Addr)
  | absoluteY (w : Addr)
  | indirectX (v : Byte)
  | indirectY (v : Byte)
deriving DecidableEq, Repr

/-- The AddressingMode value built for one instruction (10_state.md R26, 40_step_and_addressing.md R93). -/
inductive AddressingMode where
  | implied
  | accumulator
  | immediate (v : Byte)
  | mem (m : MemMode)
  | relative (d : Byte)
deriving DecidableEq, Repr

/-- The class of a memory mode. -/
def MemMode.modeClass : MemMode → ModeClass
  | .zeroPage _ => .zeroPage
  | .zeroPageX _ => .zeroPageX
  | .zeroPageY _ => .zeroPageY
  | .absolute _ => .absolute
  | .absoluteX _ => .absoluteX
  | .absoluteY _ => .absoluteY
  | .indirectX _ => .indirectX
  | .indirectY _ => .indirectY

/-- The class of an addressing mode. -/
def AddressingMode.modeClass : AddressingMode → ModeClass
  | .implied => .implied
  | .accumulator => .accumulator
  | .immediate _ => .immediate
  | .mem m => m.modeClass
  | .relative _ => .relative

/-- One row of an opcode table: the opcode byte and the Decoder's record for it, "operation identifier, addressing-mode
class" (30_encoding.md R56); the operand byte count follows from the class (R57). -/
structure OpcodeRow where
  opcode    : Byte
  operation : Operation
  mode      : ModeClass
deriving DecidableEq, Repr

/-- `OPCODE_TABLE` (00_scope.md R5, 30_encoding.md R64) as the list of its valid rows: a byte that no row lists is the
explicit invalid record. -/
abbrev OpcodeTable := List OpcodeRow

/-- The instructions: one constructor per row of spec/opcode_table.json, and the seven ZeroPage,Y forms that only a table
other than the default one selects (log 12). `v` is the operand byte, `w` the operand word, `d` the displacement. -/
inductive Instr where
  | adcImm (v : Byte)
  | adcZp (v : Byte)
  | adcZpx (v : Byte)
  | adcZpy (v : Byte)
  | adcAbs (w : Addr)
  | adcAbsx (w : Addr)
  | adcAbsy (w : Addr)
  | adcIndx (v : Byte)
  | adcIndy (v : Byte)
  | andImm (v : Byte)
  | andZp (v : Byte)
  | andZpx (v : Byte)
  | andZpy (v : Byte)
  | andAbs (w : Addr)
  | andAbsx (w : Addr)
  | andAbsy (w : Addr)
  | andIndx (v : Byte)
  | andIndy (v : Byte)
  | bitZp (v : Byte)
  | bitZpy (v : Byte)
  | bitAbs (w : Addr)
  | cmpImm (v : Byte)
  | cmpZp (v : Byte)
  | cmpZpx (v : Byte)
  | cmpZpy (v : Byte)
  | cmpAbs (w : Addr)
  | cmpAbsx (w : Addr)
  | cmpAbsy (w : Addr)
  | cmpIndx (v : Byte)
  | cmpIndy (v : Byte)
  | cpxImm (v : Byte)
  | cpxZp (v : Byte)
  | cpxZpy (v : Byte)
  | cpxAbs (w : Addr)
  | cpyImm (v : Byte)
  | cpyZp (v : Byte)
  | cpyZpy (v : Byte)
  | cpyAbs (w : Addr)
  | aslAcc
  | aslZp (v : Byte)
  | aslZpx (v : Byte)
  | aslZpy (v : Byte)
  | aslAbs (w : Addr)
  | aslAbsx (w : Addr)
  | bcc (d : Byte)
  | bcs (d : Byte)
  | beq (d : Byte)
  | bne (d : Byte)
  | bmi (d : Byte)
  | bpl (d : Byte)
  | bvc (d : Byte)
  | bvs (d : Byte)
  | clc
  | cld
  | cli
  | clv
  | inx
  | iny
  | dex
  | dey
deriving DecidableEq, Repr

/-- The operation an instruction names. -/
def Instr.operation : Instr → Operation
  | .adcImm _ | .adcZp _ | .adcZpx _ | .adcZpy _ | .adcAbs _
  | .adcAbsx _ | .adcAbsy _ | .adcIndx _ | .adcIndy _ => .adc
  | .andImm _ | .andZp _ | .andZpx _ | .andZpy _ | .andAbs _
  | .andAbsx _ | .andAbsy _ | .andIndx _ | .andIndy _ => .and
  | .aslAcc | .aslZp _ | .aslZpx _ | .aslZpy _ | .aslAbs _ | .aslAbsx _ => .asl
  | .bitZp _ | .bitZpy _ | .bitAbs _ => .bit
  | .bcc _ => .bcc
  | .bcs _ => .bcs
  | .beq _ => .beq
  | .bne _ => .bne
  | .bmi _ => .bmi
  | .bpl _ => .bpl
  | .bvc _ => .bvc
  | .bvs _ => .bvs
  | .clc => .clc
  | .cld => .cld
  | .cli => .cli
  | .clv => .clv
  | .cmpImm _ | .cmpZp _ | .cmpZpx _ | .cmpZpy _ | .cmpAbs _
  | .cmpAbsx _ | .cmpAbsy _ | .cmpIndx _ | .cmpIndy _ => .cmp
  | .cpxImm _ | .cpxZp _ | .cpxZpy _ | .cpxAbs _ => .cpx
  | .cpyImm _ | .cpyZp _ | .cpyZpy _ | .cpyAbs _ => .cpy
  | .inx => .inx
  | .iny => .iny
  | .dex => .dex
  | .dey => .dey

/-- The addressing mode of an instruction, its operand bytes assembled. -/
def Instr.mode : Instr → AddressingMode
  | .adcImm v | .andImm v | .cmpImm v | .cpxImm v | .cpyImm v => .immediate v
  | .adcZp v | .andZp v | .bitZp v | .cmpZp v | .cpxZp v | .cpyZp v | .aslZp v => .mem (.zeroPage v)
  | .adcZpx v | .andZpx v | .cmpZpx v | .aslZpx v => .mem (.zeroPageX v)
  | .adcZpy v | .andZpy v | .bitZpy v | .cmpZpy v | .cpxZpy v | .cpyZpy v | .aslZpy v => .mem (.zeroPageY v)
  | .adcAbs w | .andAbs w | .bitAbs w | .cmpAbs w | .cpxAbs w | .cpyAbs w | .aslAbs w => .mem (.absolute w)
  | .adcAbsx w | .andAbsx w | .cmpAbsx w | .aslAbsx w => .mem (.absoluteX w)
  | .adcAbsy w | .andAbsy w | .cmpAbsy w => .mem (.absoluteY w)
  | .adcIndx v | .andIndx v | .cmpIndx v => .mem (.indirectX v)
  | .adcIndy v | .andIndy v | .cmpIndy v => .mem (.indirectY v)
  | .aslAcc => .accumulator
  | .bcc d | .bcs d | .beq d | .bne d | .bmi d | .bpl d | .bvc d | .bvs d => .relative d
  | .clc | .cld | .cli | .clv | .inx | .iny | .dex | .dey => .implied

/-- The number of operand bytes of a format (30_encoding.md R55). -/
def Format.operandBytes : Format → Nat
  | .f1 => 0
  | .f2 => 1
  | .f3 => 2

/-- The length of an instruction in bytes, 1 plus its operand byte count (30_encoding.md R55, 90_conflicts.md C4). -/
def AddressingMode.len (m : AddressingMode) : Nat := 1 + m.modeClass.format.operandBytes

end Sys2Proof
end

