-- ==== Sys2Proof/WellFormed.lean ====
section
/-! DEFINITION. When an instruction is well formed: some row of the opcode table selects its operation and mode class.
Operand bytes are bytes and words by type, so nothing else can be wrong with a term. -/

namespace Sys2Proof

/-- The row of a table that selects an operation and a mode class, if one does. -/
def OpcodeTable.rowFor (t : OpcodeTable) (op : Operation) (mode : ModeClass) : Option OpcodeRow :=
  t.find? fun r => decide (r.operation = op) && decide (r.mode = mode)

/-- An instruction is well formed for a table when the table has an opcode for it (30_encoding.md R59, R65): under the
default table the ZeroPage,Y forms are not (40_step_and_addressing.md R85). -/
def WellFormed (t : OpcodeTable) (i : Instr) : Bool :=
  (t.rowFor i.operation i.mode.modeClass).isSome

end Sys2Proof
end

