-- ==== Sys2Proof/Decode.lean ====
section
/-! DEFINITION. The Decoder (30_encoding.md R55 to R60): the default opcode table of R59, the decoder from bytes, total
and rejecting by name, and the encoder, both read from the same table. -/

namespace Sys2Proof

/-- The word `b2, b1` = b2 * 256 + b1: the lower address holds the less significant byte (20_memory.md R37). -/
def wordOf (lo hi : Byte) : Addr := hi ++ lo

/-- The less significant byte of a word. -/
def loByte (w : Addr) : Byte := w.extractLsb' 0 8

/-- The more significant byte of a word. -/
def hiByte (w : Addr) : Byte := w.extractLsb' 8 8

/-- 30_encoding.md R59: the rows of ADC (byte values: decision D1, log 11). -/
def adcRows : OpcodeTable :=
  [ ⟨0x69#8, .adc, .immediate⟩
  , ⟨0x65#8, .adc, .zeroPage⟩
  , ⟨0x75#8, .adc, .zeroPageX⟩
  , ⟨0x6D#8, .adc, .absolute⟩
  , ⟨0x7D#8, .adc, .absoluteX⟩
  , ⟨0x79#8, .adc, .absoluteY⟩
  , ⟨0x61#8, .adc, .indirectX⟩
  , ⟨0x71#8, .adc, .indirectY⟩ ]

/-- 30_encoding.md R59: the rows of AND (byte values: decision D1, log 11). -/
def andRows : OpcodeTable :=
  [ ⟨0x29#8, .and, .immediate⟩
  , ⟨0x25#8, .and, .zeroPage⟩
  , ⟨0x35#8, .and, .zeroPageX⟩
  , ⟨0x2D#8, .and, .absolute⟩
  , ⟨0x3D#8, .and, .absoluteX⟩
  , ⟨0x39#8, .and, .absoluteY⟩
  , ⟨0x21#8, .and, .indirectX⟩
  , ⟨0x31#8, .and, .indirectY⟩ ]

/-- 30_encoding.md R59: the rows of BIT (byte values: decision D1, log 11). -/
def bitRows : OpcodeTable :=
  [ ⟨0x24#8, .bit, .zeroPage⟩
  , ⟨0x2C#8, .bit, .absolute⟩ ]

/-- 30_encoding.md R59: the rows of CMP (byte values: decision D1, log 11). -/
def cmpRows : OpcodeTable :=
  [ ⟨0xC9#8, .cmp, .immediate⟩
  , ⟨0xC5#8, .cmp, .zeroPage⟩
  , ⟨0xD5#8, .cmp, .zeroPageX⟩
  , ⟨0xCD#8, .cmp, .absolute⟩
  , ⟨0xDD#8, .cmp, .absoluteX⟩
  , ⟨0xD9#8, .cmp, .absoluteY⟩
  , ⟨0xC1#8, .cmp, .indirectX⟩
  , ⟨0xD1#8, .cmp, .indirectY⟩ ]

/-- 30_encoding.md R59: the rows of CPX and CPY (byte values: decision D1, log 11). -/
def cpxCpyRows : OpcodeTable :=
  [ ⟨0xE0#8, .cpx, .immediate⟩
  , ⟨0xE4#8, .cpx, .zeroPage⟩
  , ⟨0xEC#8, .cpx, .absolute⟩
  , ⟨0xC0#8, .cpy, .immediate⟩
  , ⟨0xC4#8, .cpy, .zeroPage⟩
  , ⟨0xCC#8, .cpy, .absolute⟩ ]

/-- 30_encoding.md R59: the rows of ASL (byte values: decision D1, log 11). -/
def aslRows : OpcodeTable :=
  [ ⟨0x0A#8, .asl, .accumulator⟩
  , ⟨0x06#8, .asl, .zeroPage⟩
  , ⟨0x16#8, .asl, .zeroPageX⟩
  , ⟨0x0E#8, .asl, .absolute⟩
  , ⟨0x1E#8, .asl, .absoluteX⟩ ]

/-- 30_encoding.md R59: the rows of the branches (byte values: decision D1, log 11). -/
def branchRows : OpcodeTable :=
  [ ⟨0x90#8, .bcc, .relative⟩
  , ⟨0xB0#8, .bcs, .relative⟩
  , ⟨0xF0#8, .beq, .relative⟩
  , ⟨0xD0#8, .bne, .relative⟩
  , ⟨0x30#8, .bmi, .relative⟩
  , ⟨0x10#8, .bpl, .relative⟩
  , ⟨0x50#8, .bvc, .relative⟩
  , ⟨0x70#8, .bvs, .relative⟩ ]

/-- 30_encoding.md R59: the rows of the Implied operations (byte values: decision D1, log 11). -/
def impliedRows : OpcodeTable :=
  [ ⟨0x18#8, .clc, .implied⟩
  , ⟨0xD8#8, .cld, .implied⟩
  , ⟨0x58#8, .cli, .implied⟩
  , ⟨0xB8#8, .clv, .implied⟩
  , ⟨0xE8#8, .inx, .implied⟩
  , ⟨0xC8#8, .iny, .implied⟩
  , ⟨0xCA#8, .dex, .implied⟩
  , ⟨0x88#8, .dey, .implied⟩ ]

/-- The default `OPCODE_TABLE`: the 53 rows of 30_encoding.md R59. -/
def defaultTable : OpcodeTable :=
  adcRows ++ andRows ++ bitRows ++ cmpRows ++ cpxCpyRows
    ++ aslRows ++ branchRows ++ impliedRows

/-- The instruction of an operation and a mode class with operand bytes `b1`, `b2` (30_encoding.md R58); `none` for a pair
that the instruction set does not have (R65, and the ZeroPage,Y forms of U18). -/
def buildInstr (op : Operation) (mode : ModeClass) (b1 b2 : Byte) : Option Instr :=
  match op, mode with
  | .adc, .immediate => some (.adcImm b1)
  | .adc, .zeroPage => some (.adcZp b1)
  | .adc, .zeroPageX => some (.adcZpx b1)
  | .adc, .zeroPageY => some (.adcZpy b1)
  | .adc, .absolute => some (.adcAbs (wordOf b1 b2))
  | .adc, .absoluteX => some (.adcAbsx (wordOf b1 b2))
  | .adc, .absoluteY => some (.adcAbsy (wordOf b1 b2))
  | .adc, .indirectX => some (.adcIndx b1)
  | .adc, .indirectY => some (.adcIndy b1)
  | .and, .immediate => some (.andImm b1)
  | .and, .zeroPage => some (.andZp b1)
  | .and, .zeroPageX => some (.andZpx b1)
  | .and, .zeroPageY => some (.andZpy b1)
  | .and, .absolute => some (.andAbs (wordOf b1 b2))
  | .and, .absoluteX => some (.andAbsx (wordOf b1 b2))
  | .and, .absoluteY => some (.andAbsy (wordOf b1 b2))
  | .and, .indirectX => some (.andIndx b1)
  | .and, .indirectY => some (.andIndy b1)
  | .bit, .zeroPage => some (.bitZp b1)
  | .bit, .zeroPageY => some (.bitZpy b1)
  | .bit, .absolute => some (.bitAbs (wordOf b1 b2))
  | .cmp, .immediate => some (.cmpImm b1)
  | .cmp, .zeroPage => some (.cmpZp b1)
  | .cmp, .zeroPageX => some (.cmpZpx b1)
  | .cmp, .zeroPageY => some (.cmpZpy b1)
  | .cmp, .absolute => some (.cmpAbs (wordOf b1 b2))
  | .cmp, .absoluteX => some (.cmpAbsx (wordOf b1 b2))
  | .cmp, .absoluteY => some (.cmpAbsy (wordOf b1 b2))
  | .cmp, .indirectX => some (.cmpIndx b1)
  | .cmp, .indirectY => some (.cmpIndy b1)
  | .cpx, .immediate => some (.cpxImm b1)
  | .cpx, .zeroPage => some (.cpxZp b1)
  | .cpx, .zeroPageY => some (.cpxZpy b1)
  | .cpx, .absolute => some (.cpxAbs (wordOf b1 b2))
  | .cpy, .immediate => some (.cpyImm b1)
  | .cpy, .zeroPage => some (.cpyZp b1)
  | .cpy, .zeroPageY => some (.cpyZpy b1)
  | .cpy, .absolute => some (.cpyAbs (wordOf b1 b2))
  | .asl, .accumulator => some .aslAcc
  | .asl, .zeroPage => some (.aslZp b1)
  | .asl, .zeroPageX => some (.aslZpx b1)
  | .asl, .zeroPageY => some (.aslZpy b1)
  | .asl, .absolute => some (.aslAbs (wordOf b1 b2))
  | .asl, .absoluteX => some (.aslAbsx (wordOf b1 b2))
  | .bcc, .relative => some (.bcc b1)
  | .bcs, .relative => some (.bcs b1)
  | .beq, .relative => some (.beq b1)
  | .bne, .relative => some (.bne b1)
  | .bmi, .relative => some (.bmi b1)
  | .bpl, .relative => some (.bpl b1)
  | .bvc, .relative => some (.bvc b1)
  | .bvs, .relative => some (.bvs b1)
  | .clc, .implied => some .clc
  | .cld, .implied => some .cld
  | .cli, .implied => some .cli
  | .clv, .implied => some .clv
  | .inx, .implied => some .inx
  | .iny, .implied => some .iny
  | .dex, .implied => some .dex
  | .dey, .implied => some .dey
  | _, _ => none

/-- A row is supported when its pair names an instruction of this set. -/
def OpcodeRow.supported (r : OpcodeRow) : Bool := (buildInstr r.operation r.mode 0#8 0#8).isSome

/-- The Decoder of 30_encoding.md R56: the record of an opcode byte, `none` the explicit invalid record (R60). The first
row that lists the byte counts; a row whose pair no instruction has is the invalid record too (log 24). -/
def decodeOpcode (t : OpcodeTable) (b : Byte) : Option OpcodeRow :=
  match t.find? fun r => decide (r.opcode = b) with
  | some r => if r.supported then some r else none
  | none => none

/-- Why bytes are not an instruction. -/
inductive DecodeError where
  /-- The opcode byte is the invalid record (30_encoding.md R60). -/
  | invalidOpcode (opcode : Byte)
  /-- The list ends before the instruction does. -/
  | truncated
deriving DecidableEq, Repr

/-- The instruction of a record and its operand bytes. -/
def buildOr (r : OpcodeRow) (b1 b2 : Byte) (rest : List Byte) : Except DecodeError (Instr × List Byte) :=
  match buildInstr r.operation r.mode b1 b2 with
  | some i => .ok (i, rest)
  | none => .error (.invalidOpcode r.opcode)

/-- Decode the first instruction of a list of bytes and return what follows it (30_encoding.md R55 to R60). -/
def decode (t : OpcodeTable) : List Byte → Except DecodeError (Instr × List Byte)
  | [] => .error .truncated
  | b :: rest =>
    match decodeOpcode t b with
    | none => .error (.invalidOpcode b)
    | some r =>
      match r.mode.format, rest with
      | .f1, rest => buildOr r 0#8 0#8 rest
      | .f2, b1 :: rest => buildOr r b1 0#8 rest
      | .f3, b1 :: b2 :: rest => buildOr r b1 b2 rest
      | _, _ => .error .truncated

/-- The operand bytes of a memory mode, in the order they are stored (30_encoding.md R58). -/
def MemMode.bytes : MemMode → List Byte
  | .zeroPage v | .zeroPageX v | .zeroPageY v | .indirectX v | .indirectY v => [v]
  | .absolute w | .absoluteX w | .absoluteY w => [loByte w, hiByte w]

/-- The operand bytes of an addressing mode, in the order they are stored. -/
def AddressingMode.bytes : AddressingMode → List Byte
  | .implied | .accumulator => []
  | .immediate v => [v]
  | .mem m => m.bytes
  | .relative d => [d]

/-- The bytes of an instruction under a table: the opcode byte of the table's row for it, then its operand bytes; no bytes
for an instruction that the table has no row for. -/
def encode (t : OpcodeTable) (i : Instr) : List Byte :=
  match t.rowFor i.operation i.mode.modeClass with
  | some r => r.opcode :: i.mode.bytes
  | none => []

/-- A table is in order when no byte has two rows, no operation and mode class have two rows, and every row's pair is an
instruction. The default table is (30_encoding.md R59). -/
def OpcodeTable.wf : OpcodeTable → Bool
  | [] => true
  | r :: rest =>
    r.supported
      && rest.all (fun q => decide (q.opcode ≠ r.opcode) && !(decide (q.operation = r.operation) && decide (q.mode = r.mode)))
      && OpcodeTable.wf rest

/-- The three bytes of a table word, the first byte its least significant one; bits from `nbits` up are zero. -/
def wordBytes (nbits w : Nat) : List Byte :=
  let v := w % 2 ^ nbits
  [BitVec.ofNat 8 v, BitVec.ofNat 8 (v / 256), BitVec.ofNat 8 (v / 65536)]

/-- The instruction the default table gives for an instruction whose bits are `w`, numbered as spec/opcode_table.json
numbers them; the bits from `nbits` up are zero. -/
def decodeTableWord (nbits w : Nat) : Option Instr :=
  match decode defaultTable (wordBytes nbits w) with
  | .ok (i, _) => some i
  | .error _ => none

end Sys2Proof
end

