-- ==== Sys2Proof/Config.lean ====
section
/-! DEFINITION. The configuration record `Cfg` of 00_scope.md R5, the reference configuration CFG0 of R6, and the model's
free value. Nothing here changes during a run (10_state.md R27). -/

namespace Sys2Proof

/-- A range of addresses `a` with `base <= a < base + size` (00_scope.md R5). -/
structure AddrRange where
  base : Nat
  size : Nat
deriving DecidableEq, Repr

/-- `DEC_INVALID` (00_scope.md R5, 93_implementation_defined.md U1): what decimal ADC gives when an operand is not valid
BCD. -/
inductive DecInvalid where
  /-- The total algorithm of 41_alu_read_ops.md R101 (the default). -/
  | totalAlgorithm
  /-- Any value for A, C, Z, V and N. -/
  | anyValue
deriving DecidableEq, Repr

/-- What an addition leaves in A and in the four flags that ADC writes (41_alu_read_ops.md R101). -/
structure AddResult where
  r : Byte
  c : Bool
  v : Bool
  z : Bool
  n : Bool
deriving DecidableEq, Repr, Inhabited

/-- The configuration record of 00_scope.md R5. -/
structure Cfg where
  /-- `CART_BASE`, `CART_SIZE`. -/
  cart : AddrRange
  /-- `PA_BASE`, `PA_SIZE`: the RAM-plus-timer register block. -/
  pa : AddrRange
  /-- `PB_BASE`, `PB_SIZE`: the video/audio-chip register block. -/
  pb : AddrRange
  /-- `CART_IMAGE`: byte `i` is at address `CART_BASE + i`. -/
  image : Memory
  /-- `RESET_VECTOR`. -/
  resetVector : Addr
  /-- `OPCODE_TABLE`. -/
  opcodeTable : OpcodeTable
  /-- `ZP_PTR_WRAP`: whether the high byte of a zero-page pointer at 0xFF comes from 0x0000 (U6). -/
  zpPtrWrap : Bool
  /-- `DEC_INVALID`. -/
  decInvalid : DecInvalid
deriving DecidableEq, Repr

/-- What a byte that no store lists reads as. DESIGN CHOICE, unsafe (log 5): the value that 95_test_vectors.md section 3
gives every cartridge byte that is not listed; the spec leaves the two blocks' initial bytes unspecified. -/
def Config.unlistedByte : Byte := 0xFF#8

/-- The cartridge image of `State.reset`: the reset vector's two bytes as 95_test_vectors.md section 3 gives them, and
no program. DESIGN CHOICE, unsafe (log 3). -/
def Config.image0 : Memory := [(0xFFC, 0x00#8), (0xFFD, 0xF0#8)]

/-- The reference configuration CFG0 of 00_scope.md R6, with the defaults of R5. DESIGN CHOICE, unsafe for a machine
configured otherwise (log 2): it is the configuration of `State.reset` alone. -/
def Config.cfg0 : Cfg where
  cart := ⟨0xF000, 0x1000⟩
  pa := ⟨0x0080, 0x0280⟩
  pb := ⟨0x0000, 0x0080⟩
  image := Config.image0
  resetVector := 0xFFFC#16
  opcodeTable := defaultTable
  zpPtrWrap := false
  decInvalid := .totalAlgorithm

/-- A free value: what the `k`-th decimal ADC on operands that are not valid BCD leaves, when the configuration says
`anyValue` (93_implementation_defined.md U1, log 9). Nothing constrains it. -/
opaque Config.freeDecimalAdc : Nat → AddResult

end Sys2Proof
end

