-- ==== Sys2Proof/Machine/State.lean ====
section
/-! DEFINITION. The state of the core as plain data, the reasons a step can stop, and the state after reset
(10_state.md, 20_memory.md R31, 60_exceptions.md R151 to R154). -/

namespace Sys2Proof.Machine

/-- The names of the eight bits of P (10_state.md R16, R17). -/
inductive FlagName where
  | c | z | i | d | b | u | v | n
deriving DecidableEq, Repr

/-- The flag register P (10_state.md R16): its seven flags. Bit 5, `P.U`, is the constant 1 (R18): `Flags.read` gives it
and nothing stores it (log 13). -/
structure Flags where
  /-- Carry. -/
  c : Bool
  /-- Zero. -/
  z : Bool
  /-- InterruptDisable. -/
  i : Bool
  /-- Decimal. -/
  d : Bool
  /-- BreakCommand. -/
  b : Bool
  /-- Overflow. -/
  v : Bool
  /-- Negative. -/
  n : Bool
deriving DecidableEq, Repr

/-- Whether a failing access was a read or a write (60_exceptions.md R154). -/
inductive Access where
  | read | write
deriving DecidableEq, Repr

/-- Why the Bus failed an access (60_exceptions.md R154). -/
inductive BusReason where
  | unmapped | readOnly
deriving DecidableEq, Repr

/-- The two error kinds and what each records (60_exceptions.md R150, R154). -/
inductive CpuError where
  | invalidOpcode (opcode : Byte) (at_ : Addr)
  | busFault (addr : Addr) (access : Access) (reason : BusReason)
deriving DecidableEq, Repr

/-- The run state of the ExecutionLoop (10_state.md R21); `halted` carries the latched error. -/
inductive RunState where
  | reset
  | running
  | halted (e : CpuError)
deriving DecidableEq, Repr

/-- The whole state of the machine. -/
structure State where
  /-- The accumulator A (10_state.md R11). -/
  a : Byte
  /-- The X index register (R12). -/
  x : Byte
  /-- The Y index register (R13). -/
  y : Byte
  /-- The stack pointer SP, which no operation reads or writes (R14). -/
  sp : Byte
  /-- The program counter (R15). -/
  pc : Addr
  /-- The flag register P (R16). -/
  p : Flags
  /-- The run state and its latched error (R21). -/
  run : RunState
  /-- The bytes of peripheral block A, by offset (20_memory.md R31, R36). -/
  blockA : Memory
  /-- The bytes of peripheral block B, by offset. -/
  blockB : Memory
  /-- The model's own field: how many free values have been drawn (log 9). -/
  draws : Nat
  /-- The configuration the core was built with: not state in the spec (10_state.md R27), never changed (log 1). -/
  cfg : Cfg
deriving DecidableEq, Repr

/-- Why the machine stops. -/
inductive Fault where
  /-- Raised by `step` in RunState Halted: it executes nothing and reports the latched error again (60_exceptions.md R161).
  Safe: Halted is terminal for `step` (R160). -/
  | halted (e : CpuError)
deriving DecidableEq, Repr

/-- What lies outside the machine's domain. -/
inductive Refusal where
  /-- Raised by `exec` for an instruction without a meaning. No arm raises it. Safe. -/
  | notModelled (mnemonic : String)
  /-- Raised by `step` in RunState Reset (92_eei_decisions.md D16, 93_implementation_defined.md U7). Safe. -/
  | stepBeforeReset
  /-- Raised by the host's `reset` on a configuration that breaks 00_scope.md R5, but for a vector whose read faults
  (93_implementation_defined.md U9, log 17). Safe. -/
  | badConfiguration
  /-- Raised by the host's `set_flag` for a mask that is not one of the eight single-bit masks (10_state.md R20). Safe. -/
  | badFlagMask
deriving DecidableEq, Repr

/-- The outcome of a step, an instruction or a host action. -/
abbrev Result := Host.Outcome State Fault Refusal

/-- The machine right after the first reset sequence under CFG0. The spec's values: `pc` the little-endian word at
RESET_VECTOR, RunState Running, P.U 1 (10_state.md R24, 70_reset_and_hazards.md R180). DESIGN CHOICE, unsafe: the
configuration (log 2), the vector's bytes (log 3), A, X, Y, SP and the seven flags zero (log 4), the blocks (log 5). -/
def State.reset : State where
  a := 0x00#8
  x := 0x00#8
  y := 0x00#8
  sp := 0x00#8
  pc := 0xF000#16
  p := { c := false, z := false, i := false, d := false, b := false, v := false, n := false }
  run := .running
  blockA := []
  blockB := []
  draws := 0
  cfg := Config.cfg0

end Sys2Proof.Machine
end

