-- ==== Sys2Proof/Machine/Flags.lean ====
section
/-! DEFINITION. The FlagEngine: reading and writing one flag (10_state.md R17 to R20) and the flag computations of the
operations (41_alu_read_ops.md, 42_shift.md, 45_index_incdec.md). -/

namespace Sys2Proof.Machine

/-- The value of one bit of P; the unused bit reads 1 in every state (10_state.md R18). -/
def Flags.read (p : Flags) : FlagName → Bool
  | .c => p.c
  | .z => p.z
  | .i => p.i
  | .d => p.d
  | .b => p.b
  | .u => true
  | .v => p.v
  | .n => p.n

/-- Write one flag "without disturbing others" (10_state.md R20); the unused bit is not writable (R18). -/
def Flags.write (p : Flags) (f : FlagName) (value : Bool) : Flags :=
  match f with
  | .c => { p with c := value }
  | .z => { p with z := value }
  | .i => { p with i := value }
  | .d => { p with d := value }
  | .b => { p with b := value }
  | .u => p
  | .v => { p with v := value }
  | .n => { p with n := value }

/-- The mask of a flag (10_state.md R17). -/
def FlagName.mask : FlagName → Byte
  | .c => 0x01#8
  | .z => 0x02#8
  | .i => 0x04#8
  | .d => 0x08#8
  | .b => 0x10#8
  | .u => 0x20#8
  | .v => 0x40#8
  | .n => 0x80#8

/-- The flag that a single-bit mask names; `none` for a mask that is not one of the eight (10_state.md R20). -/
def FlagName.ofMask (mask : Byte) : Option FlagName :=
  [FlagName.c, .z, .i, .d, .b, .u, .v, .n].find? fun f => decide (f.mask = mask)

/-- P as a byte, bit 0 Carry to bit 7 Negative (10_state.md R17). -/
def Flags.toByte (p : Flags) : Byte :=
  BitVec.ofNat 8
    (p.c.toNat + 2 * p.z.toNat + 4 * p.i.toNat + 8 * p.d.toNat + 16 * p.b.toNat + 32 + 64 * p.v.toNat + 128 * p.n.toNat)

/-- `setZN(r)` of 41_alu_read_ops.md R100 (c): Z says the byte is 0, N is its bit 7. -/
def Flags.setZN (p : Flags) (r : Byte) : Flags :=
  (p.write .z (decide (r = 0#8))).write .n (r.getLsbD 7)

/-- True signed overflow (41_alu_read_ops.md R101): `a` and `m` have the same bit 7 and that of `r` differs. -/
def signedOverflow (a m r : Byte) : Bool := decide ((a ^^^ r) &&& (m ^^^ r) &&& 0x80#8 ≠ 0#8)

/-- The result and flags of an addition from its result byte and its carry: Z and N from the result, V by the sign test. -/
def addResult (a m r : Byte) (carry : Bool) : AddResult where
  r := r
  c := carry
  v := signedOverflow a m r
  z := decide (r = 0#8)
  n := r.getLsbD 7

/-- Binary ADC (41_alu_read_ops.md R101): the sum over the integers, its low 8 bits, carry when it exceeds 255. -/
def adcBinary (a m : Byte) (carry : Bool) : AddResult :=
  let sum := a.toNat + m.toNat + carry.toNat
  addResult a m (BitVec.ofNat 8 sum) (decide (sum > 255))

/-- The sum of two digits with the decimal correction: "add 6 to a nibble sum > 9", and the carry, a single 1. -/
def decimalDigit (sum : Nat) : Nat × Nat := if sum > 9 then (sum + 6, 1) else (sum, 0)

/-- Decimal ADC (41_alu_read_ops.md R101, decision D9): digit by digit, the corrected nibbles packed. -/
def adcDecimal (a m : Byte) (carry : Bool) : AddResult :=
  let lo := decimalDigit (a.toNat % 16 + m.toNat % 16 + carry.toNat)
  let hi := decimalDigit (a.toNat / 16 + m.toNat / 16 + lo.2)
  addResult a m (BitVec.ofNat 8 (hi.1 % 16 * 16 + lo.1 % 16)) (decide (hi.2 = 1))

/-- A byte is valid BCD when both nibbles are at most 9 (00_scope.md glossary, BCD). -/
def validBcd (v : Byte) : Bool := decide (v.toNat % 16 ≤ 9) && decide (v.toNat / 16 ≤ 9)

/-- The flags after ADC: C, V, Z and N written, the others kept. -/
def Flags.setAdd (p : Flags) (q : AddResult) : Flags :=
  (((p.write .c q.c).write .v q.v).write .z q.z).write .n q.n

/-- The flags after BIT: Z from `a & m`, V and N from bits 6 and 7 of the operand (41_alu_read_ops.md R103). -/
def Flags.setBit (p : Flags) (a m : Byte) : Flags :=
  ((p.write .z (decide (a &&& m = 0#8))).write .v (m.getLsbD 6)).write .n (m.getLsbD 7)

/-- The flags after a compare of register value `r` with `m` (41_alu_read_ops.md R104): C unsigned `r >= m`, Z equality,
N bit 7 of the difference modulo 256. -/
def Flags.setCompare (p : Flags) (r m : Byte) : Flags :=
  ((p.write .c (decide (m.toNat ≤ r.toNat))).write .z (decide (r = m))).write .n ((r - m).getLsbD 7)

/-- ASL's result (42_shift.md R110): the byte shifted left by 1, bit 0 clear. -/
def shiftLeft1 (m : Byte) : Byte := BitVec.ofNat 8 (m.toNat * 2)

/-- The flags after ASL of `m`: C its old bit 7, Z and N from the result (42_shift.md R110). -/
def Flags.setShift (p : Flags) (m : Byte) : Flags := (p.write .c (m.getLsbD 7)).setZN (shiftLeft1 m)

end Sys2Proof.Machine
end

