-- ==== Sys2Proof/Machine/Memory.lean ====
section
/-! DEFINITION. The byte stores behind the Bus: reading and writing one byte by offset, and the canonical form
(20_memory.md R31, R36; log 21). -/

namespace Sys2Proof.Machine

/-- The byte at an offset; an unlisted offset reads as `Config.unlistedByte`. -/
def Memory.get : Memory → Nat → Byte
  | [], _ => Config.unlistedByte
  | (k, v) :: rest, o => if k = o then v else Memory.get rest o

/-- A store without the entries of one offset. -/
def Memory.erase : Memory → Nat → Memory
  | [], _ => []
  | (k, v) :: rest, o => if k = o then Memory.erase rest o else (k, v) :: Memory.erase rest o

/-- Put an entry before the first larger offset. -/
def Memory.insert : Memory → Nat → Byte → Memory
  | [], o, v => [(o, v)]
  | (k, w) :: rest, o, v => if o < k then (o, v) :: (k, w) :: rest else (k, w) :: Memory.insert rest o v

/-- Store a byte at an offset; the value an unlisted offset reads as takes no entry. -/
def Memory.set (m : Memory) (o : Nat) (v : Byte) : Memory :=
  if v = Config.unlistedByte then Memory.erase m o else Memory.insert (Memory.erase m o) o v

/-- The canonical form from offset `lo` on: offsets strictly rising and below `size`, no entry equal to what an unlisted
offset reads as. -/
def Memory.wfFrom (size : Nat) : Nat → Memory → Bool
  | _, [] => true
  | lo, (k, v) :: rest =>
    decide (lo ≤ k) && decide (k < size) && decide (v ≠ Config.unlistedByte) && Memory.wfFrom size (k + 1) rest

/-- The canonical form of a store of `size` bytes. -/
def Memory.wf (size : Nat) (m : Memory) : Bool := Memory.wfFrom size 0 m

end Sys2Proof.Machine
end

