-- ==== Sys2Proof/Machine/Ops.lean ====
section
/-! DEFINITION. The named operations over the state: writing each field, the Bus (20_memory.md R32 to R35), raising an
error (60_exceptions.md R155) and the reset sequence, the only return from it (R160, 70_reset_and_hazards.md R180). -/

namespace Sys2Proof.Machine

/-- Write A. -/
def State.setA (s : State) (v : Byte) : State := { s with a := v }

/-- Write X. -/
def State.setX (s : State) (v : Byte) : State := { s with x := v }

/-- Write Y. -/
def State.setY (s : State) (v : Byte) : State := { s with y := v }

/-- Write P. -/
def State.setFlags (s : State) (p : Flags) : State := { s with p := p }

/-- Write pc. -/
def State.setPc (s : State) (v : Addr) : State := { s with pc := v }

/-- Write the run state. -/
def State.setRun (s : State) (r : RunState) : State := { s with run := r }

/-- Write the bytes of block A. -/
def State.setBlockA (s : State) (m : Memory) : State := { s with blockA := m }

/-- Write the bytes of block B. -/
def State.setBlockB (s : State) (m : Memory) : State := { s with blockB := m }

/-- Count one free value more. -/
def State.nextDraw (s : State) : State := { s with draws := s.draws + 1 }

/-- Load a cartridge image: a loader's act, not the machine's (00_scope.md R3). -/
def State.loadImage (s : State) (m : Memory) : State := { s with cfg := { s.cfg with image := m } }

/-- Whether an address lies in a range. -/
def inRange (r : AddrRange) (a : Addr) : Bool := decide (r.base ≤ a.toNat) && decide (a.toNat < r.base + r.size)

/-- The store that answers an address, with the offset passed to it (20_memory.md R32). -/
inductive Region where
  | cart (o : Nat)
  | blockA (o : Nat)
  | blockB (o : Nat)
  | unmapped
deriving DecidableEq, Repr

/-- `Region(a)` of 20_memory.md R32: the offset is the address minus the base; there is no mirroring. -/
def regionOf (c : Cfg) (a : Addr) : Region :=
  if inRange c.cart a then .cart (a.toNat - c.cart.base)
  else if inRange c.pa a then .blockA (a.toNat - c.pa.base)
  else if inRange c.pb a then .blockB (a.toNat - c.pb.base)
  else .unmapped

/-- `MemRead(a, 1)` (20_memory.md R33): the store's byte, or BusFault; it changes no state. -/
def State.readByte (s : State) (a : Addr) : Except CpuError Byte :=
  match regionOf s.cfg a with
  | .cart o => .ok (Memory.get s.cfg.image o)
  | .blockA o => .ok (Memory.get s.blockA o)
  | .blockB o => .ok (Memory.get s.blockB o)
  | .unmapped => .error (.busFault a .read .unmapped)

/-- Two byte reads, the low byte's address first, as a word: the second read does not happen when the first faults. -/
def State.readPair (s : State) (lo hi : Addr) : Except CpuError Addr :=
  match s.readByte lo with
  | .error e => .error e
  | .ok l =>
    match s.readByte hi with
    | .error e => .error e
    | .ok h => .ok (wordOf l h)

/-- `MemRead(a, 2)` (20_memory.md R35): little-endian, the bytes at `a` and `a + 1`, wrapping at the top of the space. -/
def State.readWord (s : State) (a : Addr) : Except CpuError Addr := s.readPair a (a + 1#16)

/-- `MemWrite(a, 1, v)` (20_memory.md R34): store the byte in a block, or BusFault for the cartridge and unmapped
addresses. -/
def State.writeByte (s : State) (a : Addr) (v : Byte) : Except CpuError State :=
  match regionOf s.cfg a with
  | .cart _ => .error (.busFault a .write .readOnly)
  | .blockA o => .ok (s.setBlockA (Memory.set s.blockA o v))
  | .blockB o => .ok (s.setBlockB (Memory.set s.blockB o v))
  | .unmapped => .error (.busFault a .write .unmapped)

/-- Raising an error (60_exceptions.md R155, R156): RunState becomes Halted with the error latched, and nothing else
changes: nothing is saved, no vector is read, `pc` still addresses the instruction. -/
def State.raise (s : State) (e : CpuError) : State := s.setRun (.halted e)

/-- Two ranges share no address. -/
def disjointRanges (r q : AddrRange) : Bool :=
  decide (r.size = 0) || decide (q.size = 0) || decide (r.base + r.size ≤ q.base) || decide (q.base + q.size ≤ r.base)

/-- A range lies inside 0..0xFFFF without wrapping (00_scope.md R5). -/
def fitsSpace (r : AddrRange) : Bool := decide (r.base < 0x10000) && decide (r.base + r.size ≤ 0x10000)

/-- The constraints of 00_scope.md R5 on the stores: each range fits, they are pairwise disjoint, the cartridge has a byte
and its image is a store of its size in canonical form. -/
def Cfg.storesOk (c : Cfg) : Bool :=
  fitsSpace c.cart && fitsSpace c.pa && fitsSpace c.pb
    && disjointRanges c.cart c.pa && disjointRanges c.cart c.pb && disjointRanges c.pa c.pb
    && decide (0 < c.cart.size) && Memory.wf c.cart.size c.image

/-- All constraints of 00_scope.md R5: also, both bytes of the reset vector lie in the cartridge range. -/
def Cfg.wf (c : Cfg) : Bool :=
  Cfg.storesOk c && inRange c.cart c.resetVector && inRange c.cart (c.resetVector + 1#16)

/-- The reset sequence (70_reset_and_hazards.md R180 to R182), in any RunState: the word at the vector into `pc`, RunState
Running, a latched error discarded, nothing else written; a fault of the vector read halts with `pc` as it was (R182). Any
other configuration that breaks 00_scope.md R5 is refused (93_implementation_defined.md U9, log 17). -/
def State.resetSequence (s : State) : Result :=
  if Cfg.storesOk s.cfg then
    match s.readWord s.cfg.resetVector with
    | .error e => .next (s.raise e)
    | .ok v =>
      if Cfg.wf s.cfg then .next ((s.setPc v).setRun .running)
      else .refused .badConfiguration
  else .refused .badConfiguration

/-- The program counter moves past an instruction of `len` bytes, modulo 0x10000 (40_step_and_addressing.md R77). -/
def State.advance (s : State) (len : Nat) : State := s.setPc (s.pc + BitVec.ofNat 16 len)

end Sys2Proof.Machine
end

