-- ==== Sys2Proof/Machine/Operands.lean ====
section
/-! DEFINITION. The AddressResolver (40_step_and_addressing.md R80 to R93): the effective address of every memory mode,
the operand byte of every mode, and the shapes of an instruction that reads an operand or shifts one. -/

namespace Sys2Proof.Machine

/-- `zext_16`: a byte as a word (00_scope.md R7). -/
def zext16 (v : Byte) : Addr := v.setWidth 16

/-- `sext_16`: a byte as a two's-complement number extended to 16 bits (00_scope.md R7). -/
def sext16 (v : Byte) : Addr := v.signExtend 16

/-- The word at a zero-page pointer (40_step_and_addressing.md R89, R90): the linear word read; with `ZP_PTR_WRAP` the
high byte is taken within page zero (93_implementation_defined.md U6). -/
def State.readPointer (s : State) (zp : Byte) : Except CpuError Addr :=
  if s.cfg.zpPtrWrap then s.readPair (zext16 zp) (zext16 (zp + 1#8)) else s.readWord (zext16 zp)

/-- The effective address of a memory mode: R83 to R90 of 40_step_and_addressing.md. -/
def State.effectiveAddress (s : State) : MemMode → Except CpuError Addr
  | .zeroPage v => .ok (zext16 v)
  | .zeroPageX v => .ok (zext16 (v + s.x))
  | .zeroPageY v => .ok (zext16 (v + s.y))
  | .absolute w => .ok w
  | .absoluteX w => .ok (w + zext16 s.x)
  | .absoluteY w => .ok (w + zext16 s.y)
  | .indirectX v => s.readPointer (v + s.x)
  | .indirectY v =>
    match s.readPointer v with
    | .ok p => .ok (p + zext16 s.y)
    | .error e => .error e

/-- The operand byte `M` at a memory mode's effective address (40_step_and_addressing.md R92). -/
def State.loadMem (s : State) (m : MemMode) : Except CpuError Byte :=
  match s.effectiveAddress m with
  | .ok ea => s.readByte ea
  | .error e => .error e

/-- An instruction that reads an operand byte at a memory mode, runs `op` on it and moves on; a fault of any access is
raised and nothing else changes (41_alu_read_ops.md R100, 40_step_and_addressing.md R78). -/
def loadOp (op : State → Byte → State) (m : MemMode) (s : State) : Result :=
  match s.loadMem m with
  | .ok v => .next ((op s v).advance (AddressingMode.mem m).len)
  | .error e => .next (s.raise e)

/-- An instruction on an immediate operand (40_step_and_addressing.md R82). -/
def immOp (op : State → Byte → State) (v : Byte) (s : State) : Result :=
  .next ((op s v).advance (AddressingMode.immediate v).len)

/-- An Implied instruction (40_step_and_addressing.md R80). -/
def impliedOp (op : State → State) (s : State) : Result := .next ((op s).advance AddressingMode.implied.len)

end Sys2Proof.Machine
end

