-- ==== Sys2Proof/Machine/Alu.lean ====
section
/-! DEFINITION. ADC, AND, BIT, CMP, CPX and CPY (41_alu_read_ops.md R100 to R106): one operation each, and one meaning per
opcode row. -/

namespace Sys2Proof.Machine

/-- Whether decimal ADC leaves free values: `DEC_INVALID` says so and an operand is not valid BCD
(93_implementation_defined.md U1, log 9). -/
def adcIsFree (s : State) (m : Byte) : Bool :=
  s.p.read .d && decide (s.cfg.decInvalid = .anyValue) && !(validBcd s.a && validBcd m)

/-- What ADC computes (41_alu_read_ops.md R101): binary when D is clear, decimal when it is set, with the carry in. -/
def adcValue (s : State) (m : Byte) : AddResult :=
  if adcIsFree s m then Config.freeDecimalAdc s.draws
  else if s.p.read .d then adcDecimal s.a m (s.p.read .c)
  else adcBinary s.a m (s.p.read .c)

/-- ADC (41_alu_read_ops.md R101): A and the flags C, V, Z, N; a free value drawn is counted. -/
def adcOp (s : State) (m : Byte) : State :=
  let t := (s.setA (adcValue s m).r).setFlags (s.p.setAdd (adcValue s m))
  if adcIsFree s m then t.nextDraw else t

/-- AND (41_alu_read_ops.md R102): A and the flags Z, N. -/
def andOp (s : State) (m : Byte) : State := (s.setA (s.a &&& m)).setFlags (s.p.setZN (s.a &&& m))

/-- BIT (41_alu_read_ops.md R103): the flags Z, V, N; A is not written. -/
def bitOp (s : State) (m : Byte) : State := s.setFlags (s.p.setBit s.a m)

/-- CMP (41_alu_read_ops.md R104): the flags C, Z, N from A and the operand. -/
def cmpOp (s : State) (m : Byte) : State := s.setFlags (s.p.setCompare s.a m)

/-- CPX (41_alu_read_ops.md R105): as CMP with X. -/
def cpxOp (s : State) (m : Byte) : State := s.setFlags (s.p.setCompare s.x m)

/-- CPY (41_alu_read_ops.md R106): as CMP with Y. -/
def cpyOp (s : State) (m : Byte) : State := s.setFlags (s.p.setCompare s.y m)

/-- ADC #$nn (R101, R82). -/
def execAdcImm (v : Byte) (s : State) : Result := immOp adcOp v s

/-- ADC $nn (R101, R83). -/
def execAdcZp (v : Byte) (s : State) : Result := loadOp adcOp ((.zeroPage v)) s

/-- ADC $nn,X (R101, R84). -/
def execAdcZpx (v : Byte) (s : State) : Result := loadOp adcOp ((.zeroPageX v)) s

/-- ADC $nn,Y (R101, R85). -/
def execAdcZpy (v : Byte) (s : State) : Result := loadOp adcOp ((.zeroPageY v)) s

/-- ADC $hhll (R101, R86). -/
def execAdcAbs (w : Addr) (s : State) : Result := loadOp adcOp ((.absolute w)) s

/-- ADC $hhll,X (R101, R87). -/
def execAdcAbsx (w : Addr) (s : State) : Result := loadOp adcOp ((.absoluteX w)) s

/-- ADC $hhll,Y (R101, R88). -/
def execAdcAbsy (w : Addr) (s : State) : Result := loadOp adcOp ((.absoluteY w)) s

/-- ADC ($nn,X) (R101, R89). -/
def execAdcIndx (v : Byte) (s : State) : Result := loadOp adcOp ((.indirectX v)) s

/-- ADC ($nn),Y (R101, R90). -/
def execAdcIndy (v : Byte) (s : State) : Result := loadOp adcOp ((.indirectY v)) s

/-- AND #$nn (R102, R82). -/
def execAndImm (v : Byte) (s : State) : Result := immOp andOp v s

/-- AND $nn (R102, R83). -/
def execAndZp (v : Byte) (s : State) : Result := loadOp andOp ((.zeroPage v)) s

/-- AND $nn,X (R102, R84). -/
def execAndZpx (v : Byte) (s : State) : Result := loadOp andOp ((.zeroPageX v)) s

/-- AND $nn,Y (R102, R85). -/
def execAndZpy (v : Byte) (s : State) : Result := loadOp andOp ((.zeroPageY v)) s

/-- AND $hhll (R102, R86). -/
def execAndAbs (w : Addr) (s : State) : Result := loadOp andOp ((.absolute w)) s

/-- AND $hhll,X (R102, R87). -/
def execAndAbsx (w : Addr) (s : State) : Result := loadOp andOp ((.absoluteX w)) s

/-- AND $hhll,Y (R102, R88). -/
def execAndAbsy (w : Addr) (s : State) : Result := loadOp andOp ((.absoluteY w)) s

/-- AND ($nn,X) (R102, R89). -/
def execAndIndx (v : Byte) (s : State) : Result := loadOp andOp ((.indirectX v)) s

/-- AND ($nn),Y (R102, R90). -/
def execAndIndy (v : Byte) (s : State) : Result := loadOp andOp ((.indirectY v)) s

/-- BIT $nn (R103, R83). -/
def execBitZp (v : Byte) (s : State) : Result := loadOp bitOp ((.zeroPage v)) s

/-- BIT $nn,Y (R103, R85). -/
def execBitZpy (v : Byte) (s : State) : Result := loadOp bitOp ((.zeroPageY v)) s

/-- BIT $hhll (R103, R86). -/
def execBitAbs (w : Addr) (s : State) : Result := loadOp bitOp ((.absolute w)) s

/-- CMP #$nn (R104, R82). -/
def execCmpImm (v : Byte) (s : State) : Result := immOp cmpOp v s

/-- CMP $nn (R104, R83). -/
def execCmpZp (v : Byte) (s : State) : Result := loadOp cmpOp ((.zeroPage v)) s

/-- CMP $nn,X (R104, R84). -/
def execCmpZpx (v : Byte) (s : State) : Result := loadOp cmpOp ((.zeroPageX v)) s

/-- CMP $nn,Y (R104, R85). -/
def execCmpZpy (v : Byte) (s : State) : Result := loadOp cmpOp ((.zeroPageY v)) s

/-- CMP $hhll (R104, R86). -/
def execCmpAbs (w : Addr) (s : State) : Result := loadOp cmpOp ((.absolute w)) s

/-- CMP $hhll,X (R104, R87). -/
def execCmpAbsx (w : Addr) (s : State) : Result := loadOp cmpOp ((.absoluteX w)) s

/-- CMP $hhll,Y (R104, R88). -/
def execCmpAbsy (w : Addr) (s : State) : Result := loadOp cmpOp ((.absoluteY w)) s

/-- CMP ($nn,X) (R104, R89). -/
def execCmpIndx (v : Byte) (s : State) : Result := loadOp cmpOp ((.indirectX v)) s

/-- CMP ($nn),Y (R104, R90). -/
def execCmpIndy (v : Byte) (s : State) : Result := loadOp cmpOp ((.indirectY v)) s

/-- CPX #$nn (R105, R82). -/
def execCpxImm (v : Byte) (s : State) : Result := immOp cpxOp v s

/-- CPX $nn (R105, R83). -/
def execCpxZp (v : Byte) (s : State) : Result := loadOp cpxOp ((.zeroPage v)) s

/-- CPX $nn,Y (R105, R85). -/
def execCpxZpy (v : Byte) (s : State) : Result := loadOp cpxOp ((.zeroPageY v)) s

/-- CPX $hhll (R105, R86). -/
def execCpxAbs (w : Addr) (s : State) : Result := loadOp cpxOp ((.absolute w)) s

/-- CPY #$nn (R106, R82). -/
def execCpyImm (v : Byte) (s : State) : Result := immOp cpyOp v s

/-- CPY $nn (R106, R83). -/
def execCpyZp (v : Byte) (s : State) : Result := loadOp cpyOp ((.zeroPage v)) s

/-- CPY $nn,Y (R106, R85). -/
def execCpyZpy (v : Byte) (s : State) : Result := loadOp cpyOp ((.zeroPageY v)) s

/-- CPY $hhll (R106, R86). -/
def execCpyAbs (w : Addr) (s : State) : Result := loadOp cpyOp ((.absolute w)) s

end Sys2Proof.Machine
end

