-- ==== Sys2Proof/Machine/Branch.lean ====
section
/-! DEFINITION. The eight conditional branches (43_branches.md R115 to R123; predicates: decision D15, log 22). -/

namespace Sys2Proof.Machine

/-- A branch (43_branches.md R115): the displacement is relative to the address after the 2-byte instruction, modulo
0x10000; no flag is written and the target is not accessed. -/
def branchOp (taken : Bool) (d : Byte) (s : State) : Result :=
  let t := s.advance (AddressingMode.relative d).len
  .next (if taken then t.setPc (t.pc + sext16 d) else t)

/-- BCC, branch if carry clear (R116). -/
def execBcc (d : Byte) (s : State) : Result := branchOp (!(s.p.read .c)) d s

/-- BCS, branch if carry set (R117). -/
def execBcs (d : Byte) (s : State) : Result := branchOp (s.p.read .c) d s

/-- BEQ, branch if zero set (R118). -/
def execBeq (d : Byte) (s : State) : Result := branchOp (s.p.read .z) d s

/-- BNE, branch if zero clear (R119). -/
def execBne (d : Byte) (s : State) : Result := branchOp (!(s.p.read .z)) d s

/-- BMI, branch if negative set (R120). -/
def execBmi (d : Byte) (s : State) : Result := branchOp (s.p.read .n) d s

/-- BPL, branch if negative clear (R121). -/
def execBpl (d : Byte) (s : State) : Result := branchOp (!(s.p.read .n)) d s

/-- BVC, branch if overflow clear (R122). -/
def execBvc (d : Byte) (s : State) : Result := branchOp (!(s.p.read .v)) d s

/-- BVS, branch if overflow set (R123). -/
def execBvs (d : Byte) (s : State) : Result := branchOp (s.p.read .v) d s

end Sys2Proof.Machine
end

