-- ==== Sys2Proof/Machine/FlagClear.lean ====
section
/-! DEFINITION. CLC, CLD, CLI and CLV (44_flag_clear.md R130 to R133): "that flag only". -/

namespace Sys2Proof.Machine

/-- Clear one flag. -/
def clearFlag (f : FlagName) (s : State) : State := s.setFlags (s.p.write f false)

/-- CLC, clear carry (R130). -/
def execClc (s : State) : Result := impliedOp (clearFlag .c) s

/-- CLD, clear decimal mode (R131). -/
def execCld (s : State) : Result := impliedOp (clearFlag .d) s

/-- CLI, clear interrupt disable (R132). -/
def execCli (s : State) : Result := impliedOp (clearFlag .i) s

/-- CLV, clear overflow (R133). -/
def execClv (s : State) : Result := impliedOp (clearFlag .v) s

end Sys2Proof.Machine
end

