-- ==== Sys2Proof/Machine/IndexReg.lean ====
section
/-! DEFINITION. INX, INY, DEX and DEY (45_index_incdec.md R136 to R140): unsigned wraparound, Z and N from the new value. -/

namespace Sys2Proof.Machine

/-- A new value of X, with Z and N. -/
def putX (s : State) (v : Byte) : State := (s.setX v).setFlags (s.p.setZN v)

/-- A new value of Y, with Z and N. -/
def putY (s : State) (v : Byte) : State := (s.setY v).setFlags (s.p.setZN v)

/-- INX (R137). -/
def execInx (s : State) : Result := impliedOp (fun s => putX s (s.x + 1#8)) s

/-- INY (R138). -/
def execIny (s : State) : Result := impliedOp (fun s => putY s (s.y + 1#8)) s

/-- DEX (R139). -/
def execDex (s : State) : Result := impliedOp (fun s => putX s (s.x - 1#8)) s

/-- DEY (R140). -/
def execDey (s : State) : Result := impliedOp (fun s => putY s (s.y - 1#8)) s

end Sys2Proof.Machine
end

