-- ==== Sys2Proof/Machine/Shift.lean ====
section
/-! DEFINITION. ASL (42_shift.md R110, R111): on A, and on memory, the only operation that writes memory. -/

namespace Sys2Proof.Machine

/-- ASL on memory (42_shift.md R110, R111): one read and one write of the same address; a fault of either is raised with
no flag, register or byte changed. -/
def shiftMem (m : MemMode) (s : State) : Result :=
  match s.effectiveAddress m with
  | .error e => .next (s.raise e)
  | .ok ea =>
    match s.readByte ea with
    | .error e => .next (s.raise e)
    | .ok v =>
      match s.writeByte ea (shiftLeft1 v) with
      | .error e => .next (s.raise e)
      | .ok t => .next ((t.setFlags (s.p.setShift v)).advance (AddressingMode.mem m).len)

/-- ASL A (R110, R81). -/
def execAslAcc (s : State) : Result :=
  .next (((s.setA (shiftLeft1 s.a)).setFlags (s.p.setShift s.a)).advance AddressingMode.accumulator.len)

/-- ASL $nn (R110, R111, R83). -/
def execAslZp (v : Byte) (s : State) : Result := shiftMem ((.zeroPage v)) s

/-- ASL $nn,X (R110, R111, R84). -/
def execAslZpx (v : Byte) (s : State) : Result := shiftMem ((.zeroPageX v)) s

/-- ASL $nn,Y (R110, R111, R85). -/
def execAslZpy (v : Byte) (s : State) : Result := shiftMem ((.zeroPageY v)) s

/-- ASL $hhll (R110, R111, R86). -/
def execAslAbs (w : Addr) (s : State) : Result := shiftMem ((.absolute w)) s

/-- ASL $hhll,X (R110, R111, R87). -/
def execAslAbsx (w : Addr) (s : State) : Result := shiftMem ((.absoluteX w)) s

end Sys2Proof.Machine
end

