-- ==== Sys2Proof/Machine/Dispatch.lean ====
section
/-! DEFINITION. The dispatch: one arm per constructor of `Instr` (40_step_and_addressing.md R76, step 5). -/

namespace Sys2Proof.Machine

def exec (i : Instr) (s : State) : Host.Outcome State Fault Refusal :=
  match i with
  | .adcImm v => Sys2Proof.Machine.execAdcImm v s
  | .adcZp v => Sys2Proof.Machine.execAdcZp v s
  | .adcZpx v => Sys2Proof.Machine.execAdcZpx v s
  | .adcZpy v => Sys2Proof.Machine.execAdcZpy v s
  | .adcAbs w => Sys2Proof.Machine.execAdcAbs w s
  | .adcAbsx w => Sys2Proof.Machine.execAdcAbsx w s
  | .adcAbsy w => Sys2Proof.Machine.execAdcAbsy w s
  | .adcIndx v => Sys2Proof.Machine.execAdcIndx v s
  | .adcIndy v => Sys2Proof.Machine.execAdcIndy v s
  | .andImm v => Sys2Proof.Machine.execAndImm v s
  | .andZp v => Sys2Proof.Machine.execAndZp v s
  | .andZpx v => Sys2Proof.Machine.execAndZpx v s
  | .andZpy v => Sys2Proof.Machine.execAndZpy v s
  | .andAbs w => Sys2Proof.Machine.execAndAbs w s
  | .andAbsx w => Sys2Proof.Machine.execAndAbsx w s
  | .andAbsy w => Sys2Proof.Machine.execAndAbsy w s
  | .andIndx v => Sys2Proof.Machine.execAndIndx v s
  | .andIndy v => Sys2Proof.Machine.execAndIndy v s
  | .bitZp v => Sys2Proof.Machine.execBitZp v s
  | .bitZpy v => Sys2Proof.Machine.execBitZpy v s
  | .bitAbs w => Sys2Proof.Machine.execBitAbs w s
  | .cmpImm v => Sys2Proof.Machine.execCmpImm v s
  | .cmpZp v => Sys2Proof.Machine.execCmpZp v s
  | .cmpZpx v => Sys2Proof.Machine.execCmpZpx v s
  | .cmpZpy v => Sys2Proof.Machine.execCmpZpy v s
  | .cmpAbs w => Sys2Proof.Machine.execCmpAbs w s
  | .cmpAbsx w => Sys2Proof.Machine.execCmpAbsx w s
  | .cmpAbsy w => Sys2Proof.Machine.execCmpAbsy w s
  | .cmpIndx v => Sys2Proof.Machine.execCmpIndx v s
  | .cmpIndy v => Sys2Proof.Machine.execCmpIndy v s
  | .cpxImm v => Sys2Proof.Machine.execCpxImm v s
  | .cpxZp v => Sys2Proof.Machine.execCpxZp v s
  | .cpxZpy v => Sys2Proof.Machine.execCpxZpy v s
  | .cpxAbs w => Sys2Proof.Machine.execCpxAbs w s
  | .cpyImm v => Sys2Proof.Machine.execCpyImm v s
  | .cpyZp v => Sys2Proof.Machine.execCpyZp v s
  | .cpyZpy v => Sys2Proof.Machine.execCpyZpy v s
  | .cpyAbs w => Sys2Proof.Machine.execCpyAbs w s
  | .aslAcc => Sys2Proof.Machine.execAslAcc s
  | .aslZp v => Sys2Proof.Machine.execAslZp v s
  | .aslZpx v => Sys2Proof.Machine.execAslZpx v s
  | .aslZpy v => Sys2Proof.Machine.execAslZpy v s
  | .aslAbs w => Sys2Proof.Machine.execAslAbs w s
  | .aslAbsx w => Sys2Proof.Machine.execAslAbsx w s
  | .bcc d => Sys2Proof.Machine.execBcc d s
  | .bcs d => Sys2Proof.Machine.execBcs d s
  | .beq d => Sys2Proof.Machine.execBeq d s
  | .bne d => Sys2Proof.Machine.execBne d s
  | .bmi d => Sys2Proof.Machine.execBmi d s
  | .bpl d => Sys2Proof.Machine.execBpl d s
  | .bvc d => Sys2Proof.Machine.execBvc d s
  | .bvs d => Sys2Proof.Machine.execBvs d s
  | .clc => Sys2Proof.Machine.execClc s
  | .cld => Sys2Proof.Machine.execCld s
  | .cli => Sys2Proof.Machine.execCli s
  | .clv => Sys2Proof.Machine.execClv s
  | .inx => Sys2Proof.Machine.execInx s
  | .iny => Sys2Proof.Machine.execIny s
  | .dex => Sys2Proof.Machine.execDex s
  | .dey => Sys2Proof.Machine.execDey s

end Sys2Proof.Machine
end

