-- ==== Sys2Proof/Machine/Fetch.lean ====
section
/-! DEFINITION. Fetching and decoding the instruction at `pc` (40_step_and_addressing.md R76 steps 1 to 3, 30_encoding.md
R55, R58), and placing bytes where the fetch reads them. -/

namespace Sys2Proof.Machine

/-- The instruction of a record and its operand bytes; InvalidOpcode when there is none. -/
def buildFetched (s : State) (r : OpcodeRow) (b1 b2 : Byte) : Except CpuError Instr :=
  match buildInstr r.operation r.mode b1 b2 with
  | some i => .ok i
  | none => .error (.invalidOpcode r.opcode s.pc)

/-- The fetch of one instruction: the opcode byte; InvalidOpcode before any operand byte is read; then the operand bytes
that the format has, `b1` before `b2`, at addresses modulo 0x10000 (R76, R79, 60_exceptions.md R152, R159). -/
def State.fetch (s : State) : Except CpuError Instr :=
  match s.readByte s.pc with
  | .error e => .error e
  | .ok b =>
    match decodeOpcode s.cfg.opcodeTable b with
    | none => .error (.invalidOpcode b s.pc)
    | some r =>
      match r.mode.format with
      | .f1 => buildFetched s r 0#8 0#8
      | .f2 =>
        match s.readByte (s.pc + 1#16) with
        | .error e => .error e
        | .ok b1 => buildFetched s r b1 0#8
      | .f3 =>
        match s.readByte (s.pc + 1#16) with
        | .error e => .error e
        | .ok b1 =>
          match s.readByte (s.pc + 2#16) with
          | .error e => .error e
          | .ok b2 => buildFetched s r b1 b2

/-- Put a byte at an address from outside the machine, as a loader does (00_scope.md R3, log 6): into the cartridge image
or a block; an unmapped address has no byte to put. -/
def State.placeByte (s : State) (a : Addr) (v : Byte) : State :=
  match regionOf s.cfg a with
  | .cart o => s.loadImage (Memory.set s.cfg.image o v)
  | .blockA o => s.setBlockA (Memory.set s.blockA o v)
  | .blockB o => s.setBlockB (Memory.set s.blockB o v)
  | .unmapped => s

/-- Put bytes at consecutive addresses modulo 0x10000. -/
def State.placeBytes (s : State) (a : Addr) : List Byte → State
  | [] => s
  | v :: rest => (s.placeByte a v).placeBytes (a + 1#16) rest

end Sys2Proof.Machine
end

