-- ==== Sys2Proof/Machine/Step.lean ====
section
/-! DEFINITION. One step of the ExecutionLoop (40_step_and_addressing.md R75, R76). -/

namespace Sys2Proof.Machine

/-- `step`: in Running, one instruction, or an error raised by its fetch; in Halted, the latched error again and nothing
else (60_exceptions.md R161); in Reset, refused (92_eei_decisions.md D16). -/
def step (s : State) : Host.Outcome State Fault Refusal :=
  match s.run with
  | .reset => .refused .stepBeforeReset
  | .halted e => .fault (.halted e)
  | .running =>
    match s.fetch with
    | .error e => .next (s.raise e)
    | .ok i => exec i s

/-- `s` with the instruction of the table word `w` placed where `step` fetches next, and running: the load of a program
from outside the machine (log 6). -/
def State.withFetchWord (s : State) (nbits w : Nat) : State :=
  (s.placeBytes s.pc (wordBytes nbits w)).setRun .running

end Sys2Proof.Machine
end

