-- ==== Sys2Proof/Machine/HostActions.lean ====
section
/-! DEFINITION. What the host can do between instructions (60_exceptions.md R168, R170, 70_reset_and_hazards.md R183):
`new`, `reset`, `step`, `run_until`, `flag`, `set_flag` and reading the registers. -/

namespace Sys2Proof.Machine

/-- The register file (10_state.md R10), as the host reads it and as the predicate of `run_until` sees it. -/
structure RegisterFile where
  a  : Byte
  x  : Byte
  y  : Byte
  sp : Byte
  pc : Addr
  p  : Byte
deriving DecidableEq, Repr

/-- Reading the registers: no effect. -/
def State.registers (s : State) : RegisterFile where
  a := s.a
  x := s.x
  y := s.y
  sp := s.sp
  pc := s.pc
  p := s.p.toByte

/-- The unspecified values of `new()` (10_state.md R24, 20_memory.md R31): one draw of each. -/
structure PowerOnDraw where
  a      : Byte
  x      : Byte
  y      : Byte
  sp     : Byte
  pc     : Addr
  p      : Flags
  blockA : Memory
  blockB : Memory
deriving DecidableEq, Repr

/-- `new()` (70_reset_and_hazards.md R183): RunState Reset, everything else but `P.U` as the draw has it (log 23). -/
def State.new (c : Cfg) (d : PowerOnDraw) : State where
  a := d.a
  x := d.x
  y := d.y
  sp := d.sp
  pc := d.pc
  p := d.p
  run := .reset
  blockA := d.blockA
  blockB := d.blockB
  draws := 0
  cfg := c

/-- `flag(mask)` (10_state.md R20): one flag's value; `none` for a mask that is not one of the eight, which is refused. -/
def State.flag (s : State) (mask : Byte) : Option Bool :=
  match FlagName.ofMask mask with
  | some f => some (s.p.read f)
  | none => none

/-- `set_flag(mask, value)` (10_state.md R18, R20): writes one flag; `0x20` changes nothing; any other mask is refused. -/
def State.setFlag (s : State) (mask : Byte) (value : Bool) : Result :=
  match FlagName.ofMask mask with
  | some f => .next (s.setFlags (s.p.write f value))
  | none => .refused .badFlagMask

/-- The host's moves that act on the machine (60_exceptions.md R168). -/
inductive HostAction where
  | reset
  | step
  | setFlag (mask : Byte) (value : Bool)
deriving DecidableEq, Repr

/-- One move of the host, always between instructions (60_exceptions.md R168, log 20). -/
def hostAct (h : HostAction) (s : State) : Result :=
  match h with
  | .reset => s.resetSequence
  | .step => step s
  | .setFlag mask value => s.setFlag mask value

/-- How `run_until` ends: the predicate held; the core halted on an error, which is passed on; a refusal; or the fuel of
the model's loop is spent. -/
inductive RunEnd where
  | holds (s : State)
  | error (e : CpuError) (s : State)
  | refused (r : Refusal)
  | outOfFuel (s : State)
deriving DecidableEq, Repr

/-- `run_until` (60_exceptions.md R170, D18): the predicate is tested on the register file before every step, the first
included; an error ends the loop with the core halted. At most `fuel` steps are taken (log 19). DESIGN CHOICE, unsafe (log
28): a call outside RunState Running, which R168 does not list, is the same loop: it answers `holds` when the predicate
holds, and otherwise what `step` answers there, the latched error in Halted and the refusal in Reset. -/
def State.runUntil (pred : RegisterFile → Bool) : Nat → State → RunEnd
  | 0, s => if pred s.registers then .holds s else .outOfFuel s
  | k + 1, s =>
    if pred s.registers then .holds s
    else
      match step s with
      | .fault (.halted e) => .error e s
      | .refused r => .refused r
      | .next t =>
        match t.run with
        | .halted e => .error e t
        | _ => State.runUntil pred k t

end Sys2Proof.Machine
end

