-- ==== Sys2Proof/Safety.lean ====
section
/-! DEFINITION. What counts as a safe run: the machine's invariant, and a core that has not halted on an error
(60_exceptions.md R172: "a faulted state is never a final state of a successful run"). -/

namespace Sys2Proof.Machine

/-- The invariant of the machine: the configuration meets 00_scope.md R5 and both blocks are stores of their size in
canonical form (20_memory.md R31). -/
def State.Inv (s : State) : Prop :=
  Cfg.wf s.cfg = true ∧ Memory.wf s.cfg.pa.size s.blockA = true ∧ Memory.wf s.cfg.pb.size s.blockB = true

/-- The core has not halted on an error. -/
def State.NotHalted (s : State) : Prop := ∀ e, s.run ≠ .halted e

/-- A step that completes its instruction: a next state in RunState Running. -/
def State.StepCompletes (s : State) : Prop := ∃ t, step s = .next t ∧ t.run = .running

/-- A run of `k` steps that all complete. -/
def State.SafeFor : Nat → State → Prop
  | 0, s => s.run = .running
  | k + 1, s => s.run = .running ∧ ∃ t, step s = .next t ∧ State.SafeFor k t

end Sys2Proof.Machine
end

