-- ==== Sys2Proof/Certificates/Slice0/Obligations.lean ====
section
/-! DEFINITION. The statements for the provers: what the Bus, the Decoder, the AddressResolver, every operation, an error,
the reset sequence and the whole machine do, after the numbered rules of spec/. The numbers on the right of the equations
are the spec's own arithmetic over the integers. -/

namespace Sys2Proof.Claims

open Sys2Proof.Machine

/-- `m` is the operand byte `M` that instruction `i` reads in state `s` (40_step_and_addressing.md R92): the immediate byte,
or the byte at the effective address of a memory mode, where the pointer and the byte can be read. -/
def OperandIs (s : State) (i : Instr) (m : Byte) : Prop :=
  match i.mode with
  | .immediate v => m = v
  | .accumulator => False
  | .mem mode => ∃ ea, s.effectiveAddress mode = .ok ea ∧ s.readByte ea = .ok m
  | .implied => False
  | .relative _ => False

/-- The address after instruction `i`, which stands at `pc` (40_step_and_addressing.md R77). -/
def nextPc (s : State) (i : Instr) : Addr := BitVec.ofNat 16 (s.pc.toNat + i.mode.len)

/-- The value of a packed-decimal byte (00_scope.md glossary, BCD). -/
def bcdValue (v : Byte) : Nat := v.toNat / 16 * 10 + v.toNat % 16

/-- `pl` and `ph` are the addresses of the low and the high byte of the zero-page pointer that an indirect mode reads
(40_step_and_addressing.md R89, R90; decision D8 and ZP_PTR_WRAP, log 10). -/
def PointerAt (s : State) (mode : MemMode) (pl ph : Addr) : Prop :=
  ∃ v zp : Byte,
    ((mode = .indirectX v ∧ zp.toNat = (v.toNat + s.x.toNat) % 0x100) ∨ (mode = .indirectY v ∧ zp = v)) ∧
    pl.toNat = zp.toNat ∧ ph.toNat = (if s.cfg.zpPtrWrap then (zp.toNat + 1) % 0x100 else zp.toNat + 1)

/-- The fetch of the instruction at `pc` comes to read the byte at `a` (40_step_and_addressing.md R76 steps 1 to 3): the
opcode byte; then, if the byte has a record with operand bytes, the first one; then, if it has two, the second one. -/
def FetchReads (s : State) (a : Addr) : Prop :=
  a = s.pc ∨ ∃ b r, s.readByte s.pc = .ok b ∧ decodeOpcode s.cfg.opcodeTable b = some r ∧
    ((r.mode.format ≠ .f1 ∧ a = s.pc + 1#16) ∨
      (r.mode.format = .f3 ∧ a = s.pc + 2#16 ∧ ∃ b1, s.readByte (s.pc + 1#16) = .ok b1))

/-- An instruction that reads an operand by `mode` comes to read the byte at `a` (40_step_and_addressing.md R79): the low
byte of the pointer of an indirect mode, then its high byte, then the byte at the effective address. -/
def OperandReads (s : State) (mode : MemMode) (a : Addr) : Prop :=
  (∃ pl ph, PointerAt s mode pl ph ∧ (a = pl ∨ (a = ph ∧ ∃ lo, s.readByte pl = .ok lo))) ∨
    s.effectiveAddress mode = .ok a

/-- The state with its inert parts replaced: SP, InterruptDisable and BreakCommand, which nothing reads
(10_state.md R14, R19; 60_exceptions.md R158). -/
def withInert (s : State) (sp : Byte) (i b : Bool) : State := { s with sp := sp, p := { s.p with i := i, b := b } }

/-- Two states that differ at most in what nothing reads: SP, InterruptDisable and BreakCommand. -/
def SameButInert (s t : State) : Prop := withInert s 0#8 false false = withInert t 0#8 false false

/-- Every byte of memory reads the same in two states. -/
def SameBytes (s t : State) : Prop := ∀ a, t.readByte a = s.readByte a

/-- Byte writes one after the other (20_memory.md R34), up to the first that faults. -/
def writeAll (s : State) : List (Addr × Byte) → Except CpuError State
  | [] => .ok s
  | (a, v) :: rest =>
    match s.writeByte a v with
    | .ok t => writeAll t rest
    | .error e => .error e

/-- The predicate of each branch (43_branches.md R116 to R123, decision D15); `none` for the other operations. -/
def branchCondition (p : Flags) : Operation → Option Bool
  | .bcc => some (!p.c)
  | .bcs => some p.c
  | .beq => some p.z
  | .bne => some (!p.z)
  | .bmi => some p.n
  | .bpl => some (!p.n)
  | .bvc => some (!p.v)
  | .bvs => some p.v
  | .adc | .and | .asl | .bit | .clc | .cld | .cli | .clv | .cmp | .cpx | .cpy | .inx | .iny | .dex | .dey => none

/-- The register a compare reads (41_alu_read_ops.md R104 to R106). -/
def compareRegister (s : State) : Operation → Option Byte
  | .cmp => some s.a
  | .cpx => some s.x
  | .cpy => some s.y
  | _ => none

/-- The operations that take an operand byte (41_alu_read_ops.md R100, 42_shift.md R110). -/
def takesOperand (op : Operation) : Prop := op ∈ [Operation.adc, .and, .bit, .cmp, .cpx, .cpy, .asl]

/-- The power-on draw that `State.reset` is built on: zero registers and flags, nothing listed (log 4, 5). -/
def zeroDraw : PowerOnDraw where
  a := 0#8
  x := 0#8
  y := 0#8
  sp := 0#8
  pc := 0#16
  p := { c := false, z := false, i := false, d := false, b := false, v := false, n := false }
  blockA := []
  blockB := []

end Sys2Proof.Claims

open Sys2Proof Sys2Proof.Machine Sys2Proof.Claims

/-! ### The Bus -/

/-- 20_memory.md R32: under the constraints of R5, an address of a range goes to that range's store, whichever range it is,
and an address of none is unmapped. One contiguous range for each store and the offset `address − base` are the spec's own
decision D3 (log 27). -/
def Obligations.AddressDecodeIsDisjoint : Prop :=
  ∀ (c : Cfg) (a : Addr), Cfg.wf c = true →
    (inRange c.cart a = true → regionOf c a = .cart (a.toNat - c.cart.base) ∧ a.toNat - c.cart.base < c.cart.size) ∧
    (inRange c.pa a = true → regionOf c a = .blockA (a.toNat - c.pa.base) ∧ a.toNat - c.pa.base < c.pa.size) ∧
    (inRange c.pb a = true → regionOf c a = .blockB (a.toNat - c.pb.base) ∧ a.toNat - c.pb.base < c.pb.size) ∧
    (inRange c.cart a = false → inRange c.pa a = false → inRange c.pb a = false → regionOf c a = .unmapped)

/-- 20_memory.md R33: the byte read answers from the store of the address's region, and faults when there is none. -/
def Obligations.ByteReadAnswersFromItsStore : Prop :=
  ∀ (s : State) (a : Addr),
    (∀ o, regionOf s.cfg a = .cart o → s.readByte a = .ok (Memory.get s.cfg.image o)) ∧
    (∀ o, regionOf s.cfg a = .blockA o → s.readByte a = .ok (Memory.get s.blockA o)) ∧
    (∀ o, regionOf s.cfg a = .blockB o → s.readByte a = .ok (Memory.get s.blockB o)) ∧
    (regionOf s.cfg a = .unmapped → s.readByte a = .error (.busFault a .read .unmapped))

/-- 20_memory.md R34, R36: the byte write faults for the cartridge and for unmapped addresses, and the machine that raises
such a fault has every byte as before. In a block it stores the byte at its offset alone and changes nothing else: that a
block is a plain byte store is the spec's own decision D11 (log 15). -/
def Obligations.ByteWriteStoresOrFaults : Prop :=
  ∀ (s : State) (a : Addr) (v : Byte),
    (∀ o, regionOf s.cfg a = .cart o → s.writeByte a v = .error (.busFault a .write .readOnly)) ∧
    (∀ o, regionOf s.cfg a = .blockA o → ∃ m, s.writeByte a v = .ok { s with blockA := m } ∧
      ∀ j, Memory.get m j = if j = o then v else Memory.get s.blockA j) ∧
    (∀ o, regionOf s.cfg a = .blockB o → ∃ m, s.writeByte a v = .ok { s with blockB := m } ∧
      ∀ j, Memory.get m j = if j = o then v else Memory.get s.blockB j) ∧
    (regionOf s.cfg a = .unmapped → s.writeByte a v = .error (.busFault a .write .unmapped)) ∧
    (∀ e, s.writeByte a v = .error e → SameBytes s (s.raise e))

/-- 20_memory.md R51: in both blocks, a read after a write returns the written value, at once or after other writes, none of
them to that address; a write to the cartridge faults and leaves the bytes as they were. -/
def Obligations.WriteThenReadRoundTrip : Prop :=
  ∀ (s : State) (a : Addr) (v : Byte),
    ((∃ o, regionOf s.cfg a = .blockA o ∨ regionOf s.cfg a = .blockB o) →
      ∃ t, s.writeByte a v = .ok t ∧ t.readByte a = .ok v ∧
        ∀ (ws : List (Addr × Byte)) (u : State), (∀ w ∈ ws, w.1 ≠ a) → writeAll t ws = .ok u → u.readByte a = .ok v) ∧
    ((∃ o, regionOf s.cfg a = .cart o) →
      ∃ e, s.writeByte a v = .error e ∧ e = .busFault a .write .readOnly ∧ SameBytes s (s.raise e))

/-- 20_memory.md R36: a write that succeeds changes the byte of no other address, and no register, flag, run state or
configuration. That a block's write changes no other offset is the spec's own decision D11 (log 15); that no other address
leads to the same offset (one contiguous range, no mirroring, offset `address − base`) is its decision D3, marked in R32
(log 27). -/
def Obligations.WriteChangesNoOtherByte : Prop :=
  ∀ (s t : State) (a : Addr) (v : Byte), s.writeByte a v = .ok t →
    (∀ b, b ≠ a → t.readByte b = s.readByte b) ∧ t = { s with blockA := t.blockA, blockB := t.blockB }

/-- 20_memory.md R35, R37: the word read is little-endian over the bytes at `a` and `a + 1` modulo 0x10000, and faults when a
read of one of them does. That the byte at `a` is read first, so that its fault is the one reported when both fail, is the
spec's own decision D7 (log 14). -/
def Obligations.WordReadIsLittleEndian : Prop :=
  ∀ (s : State) (a b : Addr), b.toNat = (a.toNat + 1) % 0x10000 →
    (∀ lo hi, s.readByte a = .ok lo → s.readByte b = .ok hi →
      ∃ w, s.readWord a = .ok w ∧ w.toNat = hi.toNat * 256 + lo.toNat) ∧
    (∀ e, s.readByte a = .error e → s.readWord a = .error e) ∧
    (∀ lo e, s.readByte a = .ok lo → s.readByte b = .error e → s.readWord a = .error e)

/-! ### Flags -/

/-- 10_state.md R17, R18, R20: `flag` with one of the eight single-bit masks reads the flag that stands at that bit, which is
the masked bit of P, and the unused bit is always 1; any other mask is refused by `flag` and by `set_flag`. The bit
positions are the spec's own decision D2 (log 22), the refusal its decision D17 (log 18). -/
def Obligations.FlagReadsTheMaskedBit : Prop :=
  ∀ (s : State),
    (s.flag 0x01#8 = some s.p.c ∧ s.flag 0x02#8 = some s.p.z ∧ s.flag 0x04#8 = some s.p.i ∧ s.flag 0x08#8 = some s.p.d ∧
      s.flag 0x10#8 = some s.p.b ∧ s.flag 0x20#8 = some true ∧ s.flag 0x40#8 = some s.p.v ∧ s.flag 0x80#8 = some s.p.n) ∧
    (∀ f : FlagName, s.flag f.mask = some (decide (s.p.toByte &&& f.mask ≠ 0#8))) ∧
    (∀ mask : Byte, mask ∉ [0x01#8, 0x02#8, 0x04#8, 0x08#8, 0x10#8, 0x20#8, 0x40#8, 0x80#8] →
      s.flag mask = none ∧ ∀ v, s.setFlag mask v = .refused .badFlagMask)

/-- 10_state.md R18, R20: `set_flag` writes the one flag its mask names and disturbs no other flag, register or byte.
That it changes nothing on the unused bit is the spec's own decision D17 (log 18); the masks are its decision D2 (log 22). -/
def Obligations.SetFlagWritesOneFlag : Prop :=
  ∀ (s : State) (f : FlagName) (v : Bool),
    ∃ p : Flags, s.setFlag f.mask v = .next { s with p := p } ∧
      (f = .u → p = s.p) ∧ (f ≠ .u → p.read f = v) ∧ ∀ g, g ≠ f → p.read g = s.p.read g

/-! ### The Decoder -/

/-- 30_encoding.md R59 (byte values: decision D1, log 11): bytes written out from the table decode to the instruction they stand
for, one or two of each family. -/
def Obligations.SampleWordsDecode : Prop :=
  decode defaultTable [0x69#8, 0x35#8] = .ok (.adcImm 0x35#8, []) ∧
  decode defaultTable [0x79#8, 0x00#8, 0x01#8] = .ok (.adcAbsy 0x0100#16, []) ∧
  decode defaultTable [0x21#8, 0x90#8] = .ok (.andIndx 0x90#8, []) ∧
  decode defaultTable [0x2C#8, 0x80#8, 0x02#8] = .ok (.bitAbs 0x0280#16, []) ∧
  decode defaultTable [0xD1#8, 0x90#8] = .ok (.cmpIndy 0x90#8, []) ∧
  decode defaultTable [0x16#8, 0x80#8] = .ok (.aslZpx 0x80#8, []) ∧
  decode defaultTable [0x0A#8] = .ok (.aslAcc, []) ∧
  decode defaultTable [0xD0#8, 0xFB#8, 0xE8#8] = .ok (.bne 0xFB#8, [0xE8#8]) ∧
  decode defaultTable [0xB8#8] = .ok (.clv, []) ∧
  decode defaultTable [0xE8#8] = .ok (.inx, []) ∧
  decode defaultTable [0xEA#8] = .error (.invalidOpcode 0xEA#8)

/-- 30_encoding.md R59, R60, R65: the default table is in order, has 53 rows and leaves 203 bytes invalid, and selects
every instruction but the ZeroPage,Y forms. The byte values are the spec's own decision D1 and the modes of each operation
its decision D14 (log 11); that the ZeroPage,Y forms have constructors is the model's choice (log 12). -/
def Obligations.DefaultTableIsInOrder : Prop :=
  defaultTable.wf = true ∧ defaultTable.length = 53 ∧
  ((List.range 256).filter fun b => (decodeOpcode defaultTable (BitVec.ofNat 8 b)).isNone).length = 203 ∧
  ∀ i : Instr, WellFormed defaultTable i = true ↔ i.mode.modeClass ≠ .zeroPageY

/-- Decode and encode agree (30_encoding.md R55 to R58, R64), for every table in order and every instruction it selects,
with every operand: decoding the encoded bytes gives the instruction back and leaves the bytes after it. What a table in
order is, is the model's choice (log 24). -/
def Obligations.DecodeOfEncodeIsTheInstruction : Prop :=
  ∀ (t : OpcodeTable) (i : Instr) (rest : List Byte), t.wf = true → WellFormed t i = true →
    decode t (encode t i ++ rest) = .ok (i, rest) ∧ (encode t i).length = i.mode.len

/-- The other direction: bytes that decode are the encoding of what they decode to, and it is well formed, so no
bit of an encoding is ignored (30_encoding.md R59: "The decoder matches the whole opcode byte"). What a table in order is,
is the model's choice (log 24). -/
def Obligations.DecodedBytesAreTheEncoding : Prop :=
  ∀ (t : OpcodeTable) (bytes rest : List Byte) (i : Instr), t.wf = true → decode t bytes = .ok (i, rest) →
    WellFormed t i = true ∧ bytes = encode t i ++ rest

/-! ### The AddressResolver -/

/-- 40_step_and_addressing.md R83 to R85: the zero-page modes address page zero, the index addition wrapping in it. -/
def Obligations.ZeroPageAddressesWrapInThePage : Prop :=
  ∀ (s : State) (v : Byte),
    (∃ ea, s.effectiveAddress (.zeroPage v) = .ok ea ∧ ea.toNat = v.toNat) ∧
    (∃ ea, s.effectiveAddress (.zeroPageX v) = .ok ea ∧ ea.toNat = (v.toNat + s.x.toNat) % 0x100) ∧
    (∃ ea, s.effectiveAddress (.zeroPageY v) = .ok ea ∧ ea.toNat = (v.toNat + s.y.toNat) % 0x100)

/-- 40_step_and_addressing.md R86 to R88: the absolute modes address the operand word, the index added over 16 bits. -/
def Obligations.AbsoluteAddressesWrapAtTheTop : Prop :=
  ∀ (s : State) (w : Addr),
    s.effectiveAddress (.absolute w) = .ok w ∧
    (∃ ea, s.effectiveAddress (.absoluteX w) = .ok ea ∧ ea.toNat = (w.toNat + s.x.toNat) % 0x10000) ∧
    (∃ ea, s.effectiveAddress (.absoluteY w) = .ok ea ∧ ea.toNat = (w.toNat + s.y.toNat) % 0x10000)

/-- 40_step_and_addressing.md R89, R90 (decision D8 and the parameter
ZP_PTR_WRAP of 93_implementation_defined.md U6, log 10): the
indirect modes take the little-endian word at a zero-page pointer, `(v + X) mod 0x100` or `v`; its high byte lies at the
next address, or at the next address within page zero when the parameter says so; Y is added over 16 bits. -/
def Obligations.IndirectAddressesFollowThePointer : Prop :=
  ∀ (s : State) (v zp : Byte) (pl ph : Addr) (lo hi : Byte),
    pl.toNat = zp.toNat →
    ph.toNat = (if s.cfg.zpPtrWrap then (zp.toNat + 1) % 0x100 else zp.toNat + 1) →
    s.readByte pl = .ok lo → s.readByte ph = .ok hi →
    (zp.toNat = (v.toNat + s.x.toNat) % 0x100 →
      ∃ ea, s.effectiveAddress (.indirectX v) = .ok ea ∧ ea.toNat = hi.toNat * 256 + lo.toNat) ∧
    (zp = v →
      ∃ ea, s.effectiveAddress (.indirectY v) = .ok ea ∧
        ea.toNat = (hi.toNat * 256 + lo.toNat + s.y.toNat) % 0x10000)

/-! ### The operations: results and completion -/

/-- 41_alu_read_ops.md R101, binary mode, every ADC form: the sum over the integers, its low 8 bits in A, C when it exceeds
255, V the sign test, Z and N from the result; nothing else but `pc` changes. -/
def Obligations.AdcBinaryResult : Prop :=
  ∀ (i : Instr) (s : State) (m : Byte), i.operation = .adc → OperandIs s i m → s.p.d = false →
    ∃ (r : Byte) (c v z n : Bool),
      exec i s = .next { s with a := r, p := { s.p with c := c, v := v, z := z, n := n }, pc := nextPc s i } ∧
      r.toNat = (s.a.toNat + m.toNat + s.p.c.toNat) % 256 ∧
      (c = true ↔ s.a.toNat + m.toNat + s.p.c.toNat > 255) ∧
      (v = true ↔ s.a.getLsbD 7 = m.getLsbD 7 ∧ r.getLsbD 7 ≠ s.a.getLsbD 7) ∧
      (z = true ↔ r.toNat = 0) ∧ n = r.getLsbD 7

/-- 41_alu_read_ops.md R101, "true signed overflow": in binary mode V after ADC says that the signed sum of A, the operand
and the carry in does not fit in a signed byte. -/
def Obligations.AdcOverflowIsTheSignedOne : Prop :=
  ∀ (i : Instr) (s : State) (m : Byte), i.operation = .adc → OperandIs s i m → s.p.d = false →
    ∃ t, exec i s = .next t ∧
      (t.p.v = true ↔ s.a.toInt + m.toInt + s.p.c.toNat < -128 ∨ s.a.toInt + m.toInt + s.p.c.toNat > 127)

/-- 41_alu_read_ops.md R101, decimal mode (decision D9, log 22), every ADC form, for valid BCD operands and, with the default of
DEC_INVALID, for all: each nibble sum above 9 is corrected by 6 and carries a single 1; Z, N and V from the final result. -/
def Obligations.AdcDecimalResult : Prop :=
  ∀ (i : Instr) (s : State) (m : Byte), i.operation = .adc → OperandIs s i m → s.p.d = true →
    (s.cfg.decInvalid = .totalAlgorithm ∨ (validBcd s.a = true ∧ validBcd m = true)) →
    ∀ lo c4 hi : Nat,
      lo = s.a.toNat % 16 + m.toNat % 16 + s.p.c.toNat →
      c4 = (if lo > 9 then 1 else 0) →
      hi = s.a.toNat / 16 + m.toNat / 16 + c4 →
      ∃ (r : Byte) (c v z n : Bool),
        exec i s = .next { s with a := r, p := { s.p with c := c, v := v, z := z, n := n }, pc := nextPc s i } ∧
        r.toNat = (if hi > 9 then hi + 6 else hi) % 16 * 16 + (if lo > 9 then lo + 6 else lo) % 16 ∧
        (c = true ↔ hi > 9) ∧
        (v = true ↔ s.a.getLsbD 7 = m.getLsbD 7 ∧ r.getLsbD 7 ≠ s.a.getLsbD 7) ∧
        (z = true ↔ r.toNat = 0) ∧ n = r.getLsbD 7

/-- 41_alu_read_ops.md R101, 95_test_vectors.md S2, S3: for valid BCD operands decimal ADC is decimal addition: the result
is valid BCD, and with the carry as its hundreds it is the decimal sum. -/
def Obligations.AdcDecimalIsDecimalAddition : Prop :=
  ∀ (i : Instr) (s : State) (m : Byte), i.operation = .adc → OperandIs s i m → s.p.d = true →
    validBcd s.a = true → validBcd m = true →
    ∃ t, exec i s = .next t ∧ validBcd t.a = true ∧
      100 * t.p.c.toNat + bcdValue t.a = bcdValue s.a + bcdValue m + s.p.c.toNat

/-- 93_implementation_defined.md U1 (the model's form of it: log 9): with DEC_INVALID at `anyValue`, decimal ADC on
operands that are not both valid BCD completes with free values in A, C, V, Z and N, draws no other and changes nothing
else. It holds for every value of the counter and says nothing of the values. -/
def Obligations.AdcInvalidDecimalIsFree : Prop :=
  ∀ (i : Instr) (s : State) (m : Byte), i.operation = .adc → OperandIs s i m → s.p.d = true →
    s.cfg.decInvalid = .anyValue → (validBcd s.a = false ∨ validBcd m = false) →
    ∃ (r : Byte) (c v z n : Bool),
      exec i s = .next { s with
        a := r
        p := { s.p with c := c, v := v, z := z, n := n }
        pc := nextPc s i
        draws := s.draws + 1 } ∧
      Config.freeDecimalAdc s.draws = ⟨r, c, v, z, n⟩

/-- 41_alu_read_ops.md R102, every AND form: A takes `A & M`, Z and N from it; nothing else but `pc` changes. -/
def Obligations.AndResult : Prop :=
  ∀ (i : Instr) (s : State) (m : Byte), i.operation = .and → OperandIs s i m →
    ∃ r : Byte, (∀ k, r.getLsbD k = (s.a.getLsbD k && m.getLsbD k)) ∧
      exec i s = .next { s with a := r, p := { s.p with z := decide (r.toNat = 0), n := r.getLsbD 7 }, pc := nextPc s i }

/-- 41_alu_read_ops.md R103, every BIT form: Z from `A & M`, V and N copies of bits 6 and 7 of the operand; A and
everything else but `pc` unchanged. -/
def Obligations.BitResult : Prop :=
  ∀ (i : Instr) (s : State) (m : Byte), i.operation = .bit → OperandIs s i m →
    ∃ z : Bool, (z = true ↔ ∀ k, ¬(s.a.getLsbD k = true ∧ m.getLsbD k = true)) ∧
      exec i s = .next { s with p := { s.p with z := z, v := m.getLsbD 6, n := m.getLsbD 7 }, pc := nextPc s i }

/-- 41_alu_read_ops.md R104, R105, R106, every CMP, CPX and CPY form: C unsigned register >= operand, Z equality, N bit 7
of the difference modulo 256; no register but `pc` and no other flag changes. -/
def Obligations.CompareResult : Prop :=
  ∀ (i : Instr) (s : State) (r m : Byte), compareRegister s i.operation = some r → OperandIs s i m →
    ∃ n : Bool, (n = true ↔ (r.toNat + 256 - m.toNat) % 256 ≥ 128) ∧
      exec i s = .next { s with
        p := { s.p with c := decide (r.toNat ≥ m.toNat), z := decide (r.toNat = m.toNat), n := n }
        pc := nextPc s i }

/-- 42_shift.md R110, ASL A: A takes twice its value modulo 256, C its old bit 7, Z and N from the result; nothing else but
`pc` changes. -/
def Obligations.AslAccumulatorResult : Prop :=
  ∀ s : State, ∃ r : Byte, r.toNat = s.a.toNat * 2 % 256 ∧
    exec .aslAcc s = .next { s with
      a := r
      p := { s.p with c := s.a.getLsbD 7, z := decide (r.toNat = 0), n := s.a.getLsbD 6 }
      pc := s.pc + 1#16 }

/-- 42_shift.md R110, R111, every memory form of ASL whose effective address lies in a block: the byte there is doubled
modulo 256, C is its old bit 7, Z and N come from the result, no other byte, register or flag but `pc` changes. That no
other byte changes rests on the spec's own decisions D3 and D11 (logs 27, 15). -/
def Obligations.AslMemoryResult : Prop :=
  ∀ (i : Instr) (s : State) (mode : MemMode) (ea : Addr) (m : Byte),
    i.operation = .asl → i.mode = .mem mode → s.effectiveAddress mode = .ok ea → s.readByte ea = .ok m →
    (∃ o, regionOf s.cfg ea = .blockA o ∨ regionOf s.cfg ea = .blockB o) →
    ∃ (r : Byte) (bytesA bytesB : Memory) (t : State), r.toNat = m.toNat * 2 % 256 ∧
      t = { s with
          blockA := bytesA
          blockB := bytesB
          p := { s.p with c := m.getLsbD 7, z := decide (r.toNat = 0), n := m.getLsbD 6 }
          pc := nextPc s i } ∧
      exec i s = .next t ∧ t.readByte ea = .ok r ∧ ∀ a, a ≠ ea → t.readByte a = s.readByte a

/-- 43_branches.md R115 to R123 (predicates: decision D15, log 22), all eight branches: when the flag predicate holds `pc` becomes
the address after the 2-byte instruction plus the signed displacement, modulo 0x10000; otherwise that address; nothing
else changes. -/
def Obligations.BranchResult : Prop :=
  ∀ (i : Instr) (s : State) (taken : Bool), branchCondition s.p i.operation = some taken →
    ∃ (d : Byte) (target : Addr), i.mode = .relative d ∧
      (target.toNat : Int) = ((s.pc.toNat : Int) + 2 + (if taken then d.toInt else 0)) % 0x10000 ∧
      exec i s = .next { s with pc := target }

/-- 44_flag_clear.md R130 to R133: CLC, CLD, CLI and CLV clear their flag and change nothing else but `pc`, by 1. -/
def Obligations.FlagClearResult : Prop :=
  ∀ s : State,
    exec .clc s = .next { s with p := { s.p with c := false }, pc := s.pc + 1#16 } ∧
    exec .cld s = .next { s with p := { s.p with d := false }, pc := s.pc + 1#16 } ∧
    exec .cli s = .next { s with p := { s.p with i := false }, pc := s.pc + 1#16 } ∧
    exec .clv s = .next { s with p := { s.p with v := false }, pc := s.pc + 1#16 }

/-- 45_index_incdec.md R136 (and R137 to R140): the register takes its value plus or minus 1 modulo 256, Z and N come from
the new value, and nothing else changes but `pc`, by 1: C and V are never touched. -/
def Obligations.IndexRegisterResult : Prop :=
  ∀ s : State,
    (∃ r : Byte, r.toNat = (s.x.toNat + 1) % 256 ∧
      exec .inx s = .next { s with
        x := r
        p := { s.p with z := decide (r.toNat = 0), n := r.getLsbD 7 }
        pc := s.pc + 1#16 }) ∧
    (∃ r : Byte, r.toNat = (s.y.toNat + 1) % 256 ∧
      exec .iny s = .next { s with
        y := r
        p := { s.p with z := decide (r.toNat = 0), n := r.getLsbD 7 }
        pc := s.pc + 1#16 }) ∧
    (∃ r : Byte, r.toNat = (s.x.toNat + 255) % 256 ∧
      exec .dex s = .next { s with
        x := r
        p := { s.p with z := decide (r.toNat = 0), n := r.getLsbD 7 }
        pc := s.pc + 1#16 }) ∧
    (∃ r : Byte, r.toNat = (s.y.toNat + 255) % 256 ∧
      exec .dey s = .next { s with
        y := r
        p := { s.p with z := decide (r.toNat = 0), n := r.getLsbD 7 }
        pc := s.pc + 1#16 })

/-! ### Where an instruction halts -/

/-- 41_alu_read_ops.md R100 (d), 42_shift.md R111, 60_exceptions.md R153, R159 (4) and (5): an instruction that reads an
operand by a memory mode halts with the BusFault of the low byte of its pointer when that is unreadable; of the high byte
when only that is; of the byte at the effective address when the pointer is readable and that is not; each time nothing but
RunState changes. Resolution fails for the pointer of an indirect mode alone. The order of the reads is the spec's own
decision D7, the report of the first its decision D20, the unchanged rest its decision D6 (log 14). -/
def Obligations.UnreadableOperandHalts : Prop :=
  ∀ (i : Instr) (s : State) (mode : MemMode), takesOperand i.operation → i.mode = .mem mode →
    (∀ pl ph, PointerAt s mode pl ph →
      (∀ e, s.readByte pl = .error e →
        e = .busFault pl .read .unmapped ∧ exec i s = .next { s with run := .halted e }) ∧
      (∀ lo e, s.readByte pl = .ok lo → s.readByte ph = .error e →
        e = .busFault ph .read .unmapped ∧ exec i s = .next { s with run := .halted e })) ∧
    (∀ ea e, s.effectiveAddress mode = .ok ea → s.readByte ea = .error e →
      e = .busFault ea .read .unmapped ∧ exec i s = .next { s with run := .halted e }) ∧
    (∀ e, s.effectiveAddress mode = .error e →
      exec i s = .next { s with run := .halted e } ∧
        ∃ pl ph, PointerAt s mode pl ph ∧
          (s.readByte pl = .error e ∨ ∃ lo, s.readByte pl = .ok lo ∧ s.readByte ph = .error e))

/-- 42_shift.md R111 (decision D6, log 14): ASL on a cartridge address raises BusFault(EA, write, read_only) and changes nothing
but RunState: no flag, no `pc`, no byte. -/
def Obligations.AslOnTheCartridgeHalts : Prop :=
  ∀ (i : Instr) (s : State) (mode : MemMode) (ea : Addr) (o : Nat), i.operation = .asl → i.mode = .mem mode →
    s.effectiveAddress mode = .ok ea → regionOf s.cfg ea = .cart o →
    exec i s = .next { s with run := .halted (.busFault ea .write .readOnly) }

/-! ### Frames -/

/-- 10_state.md R10 to R14: whatever an instruction's outcome, A is written by ADC, AND and ASL A alone, X by INX and DEX,
Y by INY and DEY, SP by none (R14, an inference the spec marks as its own), the configuration and so the cartridge by none; the model's counter of free values moves for
ADC alone. -/
def Obligations.RegistersWrittenOnlyAsListed : Prop :=
  ∀ (i : Instr) (s t : State), exec i s = .next t →
    (i.operation ≠ .adc → i.operation ≠ .and → i ≠ .aslAcc → t.a = s.a) ∧
    (i.operation ≠ .inx → i.operation ≠ .dex → t.x = s.x) ∧
    (i.operation ≠ .iny → i.operation ≠ .dey → t.y = s.y) ∧
    t.sp = s.sp ∧ t.cfg = s.cfg ∧ (i.operation ≠ .adc → t.draws = s.draws)

/-- 10_state.md R19: "No operation may set or clear a flag other than the ones its specification (below) lists", flag by
flag. -/
def Obligations.FlagsWrittenOnlyAsListed : Prop :=
  ∀ (i : Instr) (s t : State), exec i s = .next t →
    (i.operation ∉ [Operation.adc, .asl, .cmp, .cpx, .cpy, .clc] → t.p.c = s.p.c) ∧
    (i.operation ∉ [Operation.adc, .and, .asl, .bit, .cmp, .cpx, .cpy, .inx, .iny, .dex, .dey] → t.p.z = s.p.z) ∧
    (i.operation ≠ .cli → t.p.i = s.p.i) ∧
    (i.operation ≠ .cld → t.p.d = s.p.d) ∧
    t.p.b = s.p.b ∧ t.p.read .u = true ∧
    (i.operation ∉ [Operation.adc, .bit, .clv] → t.p.v = s.p.v) ∧
    (i.operation ∉ [Operation.adc, .and, .asl, .bit, .cmp, .cpx, .cpy, .inx, .iny, .dex, .dey] → t.p.n = s.p.n)

/-- 20_memory.md R49, 41_alu_read_ops.md R100 (e), 42_shift.md R111: every byte of memory reads as before, but the one byte
at the effective address of ASL on memory. That this is one byte alone rests on the spec's own decisions D3 and D11
(logs 27, 15). -/
def Obligations.MemoryWrittenOnlyByAsl : Prop :=
  ∀ (i : Instr) (s t : State), exec i s = .next t →
    ((i.operation ≠ .asl ∨ i = .aslAcc) → SameBytes s t) ∧
    (∀ mode ea, i.operation = .asl → i.mode = .mem mode → s.effectiveAddress mode = .ok ea →
      ∀ a, a ≠ ea → t.readByte a = s.readByte a) ∧
    (∀ mode e, i.operation = .asl → i.mode = .mem mode → s.effectiveAddress mode = .error e → SameBytes s t)

/-! ### The step -/

/-- 40_step_and_addressing.md R76, 30_encoding.md R55, R58: in RunState Running, when the bytes that stand at `pc` and on
decode to an instruction, `step` is `exec` of that instruction in that state. The bytes are those its format has, read in
order at addresses modulo 0x10000. -/
def Obligations.StepRunsTheDecodedInstruction : Prop :=
  ∀ (s : State) (i : Instr) (bytes : List Byte), s.run = .running →
    decode s.cfg.opcodeTable bytes = .ok (i, []) →
    (∀ k (h : k < bytes.length), s.readByte (BitVec.ofNat 16 (s.pc.toNat + k)) = .ok bytes[k]) →
    step s = exec i s

/-- 60_exceptions.md R152, R155, 30_encoding.md R60 (payload: decision D12, log 7): a byte at `pc` for which the
table has no record raises InvalidOpcode: RunState becomes Halted with the byte and its address, and every register, flag and byte stays,
whatever lies at the addresses after it. -/
def Obligations.InvalidOpcodeHalts : Prop :=
  ∀ (s : State) (b : Byte), s.run = .running → s.readByte s.pc = .ok b → decodeOpcode s.cfg.opcodeTable b = none →
    step s = .next { s with run := .halted (.invalidOpcode b s.pc) }

/-- 60_exceptions.md R153, R159 (decisions D6, D20, log 14): an unmapped `pc` raises BusFault, never InvalidOpcode; then an
unmapped first operand byte does, then an unmapped second one; each halts the core and changes nothing else. -/
def Obligations.FetchFaultHalts : Prop :=
  ∀ s : State, s.run = .running →
    (regionOf s.cfg s.pc = .unmapped → step s = .next { s with run := .halted (.busFault s.pc .read .unmapped) }) ∧
    (∀ b r, s.readByte s.pc = .ok b → decodeOpcode s.cfg.opcodeTable b = some r → r.mode.format ≠ .f1 →
      regionOf s.cfg (s.pc + 1#16) = .unmapped →
      step s = .next { s with run := .halted (.busFault (s.pc + 1#16) .read .unmapped) }) ∧
    (∀ b b1 r, s.readByte s.pc = .ok b → decodeOpcode s.cfg.opcodeTable b = some r → r.mode.format = .f3 →
      s.readByte (s.pc + 1#16) = .ok b1 → regionOf s.cfg (s.pc + 2#16) = .unmapped →
      step s = .next { s with run := .halted (.busFault (s.pc + 2#16) .read .unmapped) })

/-- 60_exceptions.md R161 (decision D10, log 7), 40_step_and_addressing.md R75 (decision D16, log 8): outside Running no step is taken: in
Halted the latched error is reported, in Reset the step is refused. -/
def Obligations.NoStepOutsideRunning : Prop :=
  ∀ s : State, (∀ e, s.run = .halted e → step s = .fault (.halted e)) ∧
    (s.run = .reset → step s = .refused .stepBeforeReset)

/-- 40_step_and_addressing.md R77: the length is 1 for Implied and Accumulator, 3 for the Absolute family and 2 for the
other modes, and after an instruction that completes and is not a taken branch `pc` has advanced by it, modulo 0x10000. When
a branch is taken is the spec's own decision D15 (log 22). -/
def Obligations.ProgramCounterAdvancesByTheLength : Prop :=
  ∀ (s t : State) (i : Instr), s.run = .running → s.fetch = .ok i → step s = .next t → t.run = .running →
    branchCondition s.p i.operation ≠ some true →
    t.pc.toNat = (s.pc.toNat + i.mode.len) % 0x10000 ∧
      i.mode.len = (if i.mode.modeClass ∈ [ModeClass.implied, .accumulator] then 1
        else if i.mode.modeClass ∈ [ModeClass.absolute, .absoluteX, .absoluteY] then 3 else 2)

/-! ### Reset and the host -/

/-- 70_reset_and_hazards.md R180, R181 (decisions D5, D10, log 16): on a configuration that meets 00_scope.md R5, in every
RunState, the reset sequence puts the word at the vector into `pc`, makes RunState Running and writes nothing else. -/
def Obligations.ResetLoadsTheVector : Prop :=
  ∀ (s : State) (v : Addr), Cfg.wf s.cfg = true → s.readWord s.cfg.resetVector = .ok v →
    s.resetSequence = .next { s with pc := v, run := .running }

/-- 70_reset_and_hazards.md R182 (decision D10, log 16): a fault of the vector read leaves `pc`, and halts the core. -/
def Obligations.ResetVectorFaultHalts : Prop :=
  ∀ (s : State) (e : CpuError), Cfg.storesOk s.cfg = true → s.readWord s.cfg.resetVector = .error e →
    s.resetSequence = .next { s with run := .halted e }

/-- 93_implementation_defined.md U9 on 00_scope.md R5: the reset sequence refuses a configuration whose ranges break the
constraints, and one whose vector lies outside the cartridge range, but for a vector whose read faults, which R182 covers
(that split is the model's: log 17). -/
def Obligations.ResetRefusesABadConfiguration : Prop :=
  ∀ s : State,
    (Cfg.storesOk s.cfg = false → s.resetSequence = .refused .badConfiguration) ∧
    (∀ v, Cfg.storesOk s.cfg = true → s.readWord s.cfg.resetVector = .ok v →
      (inRange s.cfg.cart s.cfg.resetVector = false ∨ inRange s.cfg.cart (s.cfg.resetVector + 1#16) = false) →
      s.resetSequence = .refused .badConfiguration)

/-- 70_reset_and_hazards.md R180, R182, 00_scope.md R5: on a configuration that meets the constraints reset cannot fault, and
`pc` is the little-endian word of the two image bytes at the vector, whatever it was. That it does so in every RunState and
writes nothing but `pc` and RunState is the spec's own decisions D5 and D10 (log 16). -/
def Obligations.ResetCannotFaultOnAGoodConfiguration : Prop :=
  ∀ s : State, Cfg.wf s.cfg = true →
    ∃ v : Addr, s.resetSequence = .next { s with pc := v, run := .running } ∧
      v.toNat = (Memory.get s.cfg.image ((s.cfg.resetVector.toNat + 1) % 0x10000 - s.cfg.cart.base)).toNat * 256
        + (Memory.get s.cfg.image (s.cfg.resetVector.toNat - s.cfg.cart.base)).toNat

/-- The model's own choice (log 2, 3, 4, 5), with 70_reset_and_hazards.md R180: `new()` under CFG0 with the zero draw,
followed by the reset sequence, is `State.reset`. -/
def Obligations.PowerOnThenResetIsTheResetState : Prop :=
  (State.new Config.cfg0 zeroDraw).resetSequence = .next State.reset

/-- 60_exceptions.md R170 (decision D18 and the model's fuel, log 19): `run_until` tests its predicate first and takes
no step when it holds; otherwise one step, whose error it passes on, and it goes on from the next state. Outside RunState
Running, where the spec does not say what a call gives, it is the same loop by the model's choice (log 28): the first clause
holds there too, and with a predicate that does not hold the latched error is reported in Halted and the call refused in
Reset. -/
def Obligations.RunUntilTestsThenSteps : Prop :=
  ∀ (pred : RegisterFile → Bool) (k : Nat) (s : State),
    (pred s.registers = true → State.runUntil pred k s = .holds s) ∧
    (pred s.registers = false → ∀ t, step s = .next t →
      (t.run = .running → State.runUntil pred (k + 1) s = State.runUntil pred k t) ∧
      (∀ e, t.run = .halted e → State.runUntil pred (k + 1) s = .error e t)) ∧
    (pred s.registers = false →
      (∀ e, s.run = .halted e → State.runUntil pred (k + 1) s = .error e s) ∧
      (s.run = .reset → State.runUntil pred (k + 1) s = .refused .stepBeforeReset))

/-! ### The whole machine -/

/-- The model's own choice (logs 2, 3, 5), with 00_scope.md R5, R6 and 20_memory.md R31: the machine's invariant holds in
`State.reset`, the state after reset under the reference configuration CFG0, with the image of log 3 and nothing listed in
the blocks. It says so for CFG0 alone. -/
def Obligations.ResetStateMeetsTheInvariant : Prop := State.reset.Inv

/-- Every step keeps the machine's invariant (00_scope.md R5, 10_state.md R27, 20_memory.md R31): the configuration meets
its constraints and both blocks stay stores of their size in canonical form. -/
def Obligations.EveryStepKeepsTheInvariant : Prop :=
  ∀ s t : State, s.Inv → step s = .next t → t.Inv

/-- Every move of the host keeps the invariant too (60_exceptions.md R168), and none changes the configuration. That reset
leaves the blocks as they were is the spec's own decision D5 (log 16). -/
def Obligations.EveryHostMoveKeepsTheInvariant : Prop :=
  ∀ (h : HostAction) (s t : State), s.Inv → hostAct h s = .next t → t.Inv ∧ t.cfg = s.cfg

/-- 10_state.md R14, R19, R27; 60_exceptions.md R158: no step changes SP, BreakCommand, the configuration or any byte of
the cartridge. -/
def Obligations.NoStepChangesInertState : Prop :=
  ∀ s t : State, step s = .next t →
    t.sp = s.sp ∧ t.p.b = s.p.b ∧ t.cfg = s.cfg ∧
    ∀ a o, regionOf s.cfg a = .cart o → t.readByte a = s.readByte a

/-- 10_state.md R25 (an inference the spec marks as its own): no step sets Decimal, InterruptDisable or BreakCommand. -/
def Obligations.NoStepSetsDecimalInterruptOrBreak : Prop :=
  ∀ s t : State, step s = .next t →
    (t.p.d = true → s.p.d = true) ∧ (t.p.i = true → s.p.i = true) ∧ (t.p.b = true → s.p.b = true)

/-- 40_step_and_addressing.md R78, 60_exceptions.md R155, R156 (decision D6, log 14): errors are precise: a step that halts the core
has changed nothing but RunState, whatever instruction it was. -/
def Obligations.ErrorsArePrecise : Prop :=
  ∀ (s t : State) (e : CpuError), step s = .next t → t.run = .halted e → t = { s with run := .halted e }

/-- 60_exceptions.md R150, R152, R153: the only causes of a halt: an opcode byte for which the table has no record (a byte
that no row lists, or a row that names no instruction: log 24); a byte of the instruction, which the fetch comes to read,
unmapped; a byte of the pointer or of the operand, which the fetched instruction comes to read, unmapped; and the effective
address of a fetched ASL in the cartridge. The order of the reads and the payloads are the spec's own decisions D7, D20 and
D12 (logs 14, 7). -/
def Obligations.OnlyTheseErrorsHalt : Prop :=
  ∀ (s t : State) (e : CpuError), step s = .next t → t.run = .halted e →
    (∃ b, s.readByte s.pc = .ok b ∧ decodeOpcode s.cfg.opcodeTable b = none ∧ e = .invalidOpcode b s.pc) ∨
    (∃ a, s.fetch = .error e ∧ FetchReads s a ∧ regionOf s.cfg a = .unmapped ∧ e = .busFault a .read .unmapped) ∨
    (∃ i mode a, s.fetch = .ok i ∧ takesOperand i.operation ∧ i.mode = .mem mode ∧ s.loadMem mode = .error e ∧
      OperandReads s mode a ∧ regionOf s.cfg a = .unmapped ∧ e = .busFault a .read .unmapped) ∨
    (∃ i mode a o, s.fetch = .ok i ∧ i.operation = .asl ∧ i.mode = .mem mode ∧ s.effectiveAddress mode = .ok a ∧
      regionOf s.cfg a = .cart o ∧ e = .busFault a .write .readOnly)

/-- 70_reset_and_hazards.md R191, 60_exceptions.md R172: every step in RunState Running answers a next state, running or
halted; never a fault, never a refusal. -/
def Obligations.EveryRunningStepAnswers : Prop :=
  ∀ s : State, s.run = .running → ∃ t, step s = .next t ∧ (t.run = .running ∨ ∃ e, t.run = .halted e)

/-- 10_state.md R14, R19; 60_exceptions.md R158: nothing reads SP, InterruptDisable or BreakCommand: two states that differ
in them alone step to states that differ in them alone, or stop the same way. -/
def Obligations.InertStateIsNeverRead : Prop :=
  ∀ s t : State, SameButInert s t →
    (∀ s', step s = .next s' → ∃ t', step t = .next t' ∧ SameButInert s' t') ∧
    (∀ f, step s = .fault f → step t = .fault f) ∧
    (∀ r, step s = .refused r → step t = .refused r)
end

