-- ==== Sys2Proof/Laws/PerInstr.lean ====
section
/-! SUPPORT. The family of statements made per instruction: the operation, the mode class and the operand bytes of an
instruction build it back (30_encoding.md R56, R58), for each constructor of `Instr`. -/

namespace Sys2Proof.Laws

/-- A word built from two bytes, as a number (20_memory.md R37). -/
theorem toNat_wordOf (l h : Byte) : (wordOf l h).toNat = h.toNat * 256 + l.toNat := by
  have hl : l.toNat < 2 ^ 8 := l.isLt
  change (h ++ l : BitVec (8 + 8)).toNat = _
  rw [BitVec.toNat_append, ← Nat.shiftLeft_add_eq_or_of_lt hl, Nat.shiftLeft_eq]

theorem toNat_loByte (w : Addr) : (loByte w).toNat = w.toNat % 256 := by
  simp [loByte, BitVec.extractLsb'_toNat]

theorem toNat_hiByte (w : Addr) : (hiByte w).toNat = w.toNat / 256 := by
  have h : w.toNat < 65536 := w.isLt
  simp only [hiByte, BitVec.extractLsb'_toNat, Nat.shiftRight_eq_div_pow]
  omega

/-- A word is put together from its two bytes. -/
@[simp] theorem wordOf_loByte_hiByte (w : Addr) : wordOf (loByte w) (hiByte w) = w := by
  apply BitVec.eq_of_toNat_eq
  rw [toNat_wordOf, toNat_loByte, toNat_hiByte]
  omega

/-- The low byte of a word built from two bytes. -/
@[simp] theorem loByte_wordOf (l h : Byte) : loByte (wordOf l h) = l := by
  have hl : l.toNat < 256 := l.isLt
  apply BitVec.eq_of_toNat_eq
  rw [toNat_loByte, toNat_wordOf]
  omega

/-- The high byte of a word built from two bytes. -/
@[simp] theorem hiByte_wordOf (l h : Byte) : hiByte (wordOf l h) = h := by
  have hl : l.toNat < 256 := l.isLt
  apply BitVec.eq_of_toNat_eq
  rw [toNat_hiByte, toNat_wordOf]
  omega

end Sys2Proof.Laws

namespace Sys2Proof.Laws.BuildsBack

/-- `buildInstr` gives an instruction back from its operation, its mode class and its operand bytes. -/
def Statement (i : Instr) : Prop :=
  buildInstr i.operation i.mode.modeClass (i.mode.bytes.getD 0 0#8) (i.mode.bytes.getD 1 0#8) = some i

theorem adcImm (v : Byte) : Statement (.adcImm v) := rfl

theorem adcZp (v : Byte) : Statement (.adcZp v) := rfl

theorem adcZpx (v : Byte) : Statement (.adcZpx v) := rfl

theorem adcZpy (v : Byte) : Statement (.adcZpy v) := rfl

theorem adcAbs (w : Addr) : Statement (.adcAbs w) := by
  show some (Instr.adcAbs (wordOf (loByte w) (hiByte w))) = some (.adcAbs w)
  rw [wordOf_loByte_hiByte]

theorem adcAbsx (w : Addr) : Statement (.adcAbsx w) := by
  show some (Instr.adcAbsx (wordOf (loByte w) (hiByte w))) = some (.adcAbsx w)
  rw [wordOf_loByte_hiByte]

theorem adcAbsy (w : Addr) : Statement (.adcAbsy w) := by
  show some (Instr.adcAbsy (wordOf (loByte w) (hiByte w))) = some (.adcAbsy w)
  rw [wordOf_loByte_hiByte]

theorem adcIndx (v : Byte) : Statement (.adcIndx v) := rfl

theorem adcIndy (v : Byte) : Statement (.adcIndy v) := rfl

theorem andImm (v : Byte) : Statement (.andImm v) := rfl

theorem andZp (v : Byte) : Statement (.andZp v) := rfl

theorem andZpx (v : Byte) : Statement (.andZpx v) := rfl

theorem andZpy (v : Byte) : Statement (.andZpy v) := rfl

theorem andAbs (w : Addr) : Statement (.andAbs w) := by
  show some (Instr.andAbs (wordOf (loByte w) (hiByte w))) = some (.andAbs w)
  rw [wordOf_loByte_hiByte]

theorem andAbsx (w : Addr) : Statement (.andAbsx w) := by
  show some (Instr.andAbsx (wordOf (loByte w) (hiByte w))) = some (.andAbsx w)
  rw [wordOf_loByte_hiByte]

theorem andAbsy (w : Addr) : Statement (.andAbsy w) := by
  show some (Instr.andAbsy (wordOf (loByte w) (hiByte w))) = some (.andAbsy w)
  rw [wordOf_loByte_hiByte]

theorem andIndx (v : Byte) : Statement (.andIndx v) := rfl

theorem andIndy (v : Byte) : Statement (.andIndy v) := rfl

theorem bitZp (v : Byte) : Statement (.bitZp v) := rfl

theorem bitZpy (v : Byte) : Statement (.bitZpy v) := rfl

theorem bitAbs (w : Addr) : Statement (.bitAbs w) := by
  show some (Instr.bitAbs (wordOf (loByte w) (hiByte w))) = some (.bitAbs w)
  rw [wordOf_loByte_hiByte]

theorem cmpImm (v : Byte) : Statement (.cmpImm v) := rfl

theorem cmpZp (v : Byte) : Statement (.cmpZp v) := rfl

theorem cmpZpx (v : Byte) : Statement (.cmpZpx v) := rfl

theorem cmpZpy (v : Byte) : Statement (.cmpZpy v) := rfl

theorem cmpAbs (w : Addr) : Statement (.cmpAbs w) := by
  show some (Instr.cmpAbs (wordOf (loByte w) (hiByte w))) = some (.cmpAbs w)
  rw [wordOf_loByte_hiByte]

theorem cmpAbsx (w : Addr) : Statement (.cmpAbsx w) := by
  show some (Instr.cmpAbsx (wordOf (loByte w) (hiByte w))) = some (.cmpAbsx w)
  rw [wordOf_loByte_hiByte]

theorem cmpAbsy (w : Addr) : Statement (.cmpAbsy w) := by
  show some (Instr.cmpAbsy (wordOf (loByte w) (hiByte w))) = some (.cmpAbsy w)
  rw [wordOf_loByte_hiByte]

theorem cmpIndx (v : Byte) : Statement (.cmpIndx v) := rfl

theorem cmpIndy (v : Byte) : Statement (.cmpIndy v) := rfl

theorem cpxImm (v : Byte) : Statement (.cpxImm v) := rfl

theorem cpxZp (v : Byte) : Statement (.cpxZp v) := rfl

theorem cpxZpy (v : Byte) : Statement (.cpxZpy v) := rfl

theorem cpxAbs (w : Addr) : Statement (.cpxAbs w) := by
  show some (Instr.cpxAbs (wordOf (loByte w) (hiByte w))) = some (.cpxAbs w)
  rw [wordOf_loByte_hiByte]

theorem cpyImm (v : Byte) : Statement (.cpyImm v) := rfl

theorem cpyZp (v : Byte) : Statement (.cpyZp v) := rfl

theorem cpyZpy (v : Byte) : Statement (.cpyZpy v) := rfl

theorem cpyAbs (w : Addr) : Statement (.cpyAbs w) := by
  show some (Instr.cpyAbs (wordOf (loByte w) (hiByte w))) = some (.cpyAbs w)
  rw [wordOf_loByte_hiByte]

theorem aslAcc : Statement .aslAcc := rfl

theorem aslZp (v : Byte) : Statement (.aslZp v) := rfl

theorem aslZpx (v : Byte) : Statement (.aslZpx v) := rfl

theorem aslZpy (v : Byte) : Statement (.aslZpy v) := rfl

theorem aslAbs (w : Addr) : Statement (.aslAbs w) := by
  show some (Instr.aslAbs (wordOf (loByte w) (hiByte w))) = some (.aslAbs w)
  rw [wordOf_loByte_hiByte]

theorem aslAbsx (w : Addr) : Statement (.aslAbsx w) := by
  show some (Instr.aslAbsx (wordOf (loByte w) (hiByte w))) = some (.aslAbsx w)
  rw [wordOf_loByte_hiByte]

theorem bcc (d : Byte) : Statement (.bcc d) := rfl

theorem bcs (d : Byte) : Statement (.bcs d) := rfl

theorem beq (d : Byte) : Statement (.beq d) := rfl

theorem bne (d : Byte) : Statement (.bne d) := rfl

theorem bmi (d : Byte) : Statement (.bmi d) := rfl

theorem bpl (d : Byte) : Statement (.bpl d) := rfl

theorem bvc (d : Byte) : Statement (.bvc d) := rfl

theorem bvs (d : Byte) : Statement (.bvs d) := rfl

theorem clc : Statement .clc := rfl

theorem cld : Statement .cld := rfl

theorem cli : Statement .cli := rfl

theorem clv : Statement .clv := rfl

theorem inx : Statement .inx := rfl

theorem iny : Statement .iny := rfl

theorem dex : Statement .dex := rfl

theorem dey : Statement .dey := rfl

/-- The family's statement holds of every instruction. -/
theorem all (i : Instr) : Statement i := by
  cases i
  case adcImm v => exact Laws.BuildsBack.adcImm v
  case adcZp v => exact Laws.BuildsBack.adcZp v
  case adcZpx v => exact Laws.BuildsBack.adcZpx v
  case adcZpy v => exact Laws.BuildsBack.adcZpy v
  case adcAbs w => exact Laws.BuildsBack.adcAbs w
  case adcAbsx w => exact Laws.BuildsBack.adcAbsx w
  case adcAbsy w => exact Laws.BuildsBack.adcAbsy w
  case adcIndx v => exact Laws.BuildsBack.adcIndx v
  case adcIndy v => exact Laws.BuildsBack.adcIndy v
  case andImm v => exact Laws.BuildsBack.andImm v
  case andZp v => exact Laws.BuildsBack.andZp v
  case andZpx v => exact Laws.BuildsBack.andZpx v
  case andZpy v => exact Laws.BuildsBack.andZpy v
  case andAbs w => exact Laws.BuildsBack.andAbs w
  case andAbsx w => exact Laws.BuildsBack.andAbsx w
  case andAbsy w => exact Laws.BuildsBack.andAbsy w
  case andIndx v => exact Laws.BuildsBack.andIndx v
  case andIndy v => exact Laws.BuildsBack.andIndy v
  case bitZp v => exact Laws.BuildsBack.bitZp v
  case bitZpy v => exact Laws.BuildsBack.bitZpy v
  case bitAbs w => exact Laws.BuildsBack.bitAbs w
  case cmpImm v => exact Laws.BuildsBack.cmpImm v
  case cmpZp v => exact Laws.BuildsBack.cmpZp v
  case cmpZpx v => exact Laws.BuildsBack.cmpZpx v
  case cmpZpy v => exact Laws.BuildsBack.cmpZpy v
  case cmpAbs w => exact Laws.BuildsBack.cmpAbs w
  case cmpAbsx w => exact Laws.BuildsBack.cmpAbsx w
  case cmpAbsy w => exact Laws.BuildsBack.cmpAbsy w
  case cmpIndx v => exact Laws.BuildsBack.cmpIndx v
  case cmpIndy v => exact Laws.BuildsBack.cmpIndy v
  case cpxImm v => exact Laws.BuildsBack.cpxImm v
  case cpxZp v => exact Laws.BuildsBack.cpxZp v
  case cpxZpy v => exact Laws.BuildsBack.cpxZpy v
  case cpxAbs w => exact Laws.BuildsBack.cpxAbs w
  case cpyImm v => exact Laws.BuildsBack.cpyImm v
  case cpyZp v => exact Laws.BuildsBack.cpyZp v
  case cpyZpy v => exact Laws.BuildsBack.cpyZpy v
  case cpyAbs w => exact Laws.BuildsBack.cpyAbs w
  case aslAcc => exact Laws.BuildsBack.aslAcc
  case aslZp v => exact Laws.BuildsBack.aslZp v
  case aslZpx v => exact Laws.BuildsBack.aslZpx v
  case aslZpy v => exact Laws.BuildsBack.aslZpy v
  case aslAbs w => exact Laws.BuildsBack.aslAbs w
  case aslAbsx w => exact Laws.BuildsBack.aslAbsx w
  case bcc d => exact Laws.BuildsBack.bcc d
  case bcs d => exact Laws.BuildsBack.bcs d
  case beq d => exact Laws.BuildsBack.beq d
  case bne d => exact Laws.BuildsBack.bne d
  case bmi d => exact Laws.BuildsBack.bmi d
  case bpl d => exact Laws.BuildsBack.bpl d
  case bvc d => exact Laws.BuildsBack.bvc d
  case bvs d => exact Laws.BuildsBack.bvs d
  case clc => exact Laws.BuildsBack.clc
  case cld => exact Laws.BuildsBack.cld
  case cli => exact Laws.BuildsBack.cli
  case clv => exact Laws.BuildsBack.clv
  case inx => exact Laws.BuildsBack.inx
  case iny => exact Laws.BuildsBack.iny
  case dex => exact Laws.BuildsBack.dex
  case dey => exact Laws.BuildsBack.dey

end Sys2Proof.Laws.BuildsBack
end

