-- ==== Sys2Proof/Laws/Decode.lean ====
section
/-! SUPPORT. The laws of the Decoder (30_encoding.md R56 to R60): what a record and operand bytes build, what a table lists. -/

namespace Sys2Proof

/-- Whether a pair builds does not depend on the operand bytes. -/
theorem buildInstr_isSome (op : Operation) (mode : ModeClass) (b1 b2 : Byte) :
    (buildInstr op mode b1 b2).isSome = (buildInstr op mode 0#8 0#8).isSome := by
  cases op <;> cases mode <;> rfl

/-- A supported row builds an instruction from any operand bytes. -/
theorem OpcodeRow.builds {r : OpcodeRow} (h : r.supported = true) (b1 b2 : Byte) :
    ∃ i, buildInstr r.operation r.mode b1 b2 = some i := by
  rw [OpcodeRow.supported, ← buildInstr_isSome r.operation r.mode b1 b2] at h
  exact Option.isSome_iff_exists.mp h

/-- What is built has the operation and the mode class it was built from. -/
theorem buildInstr_form {op : Operation} {mode : ModeClass} {b1 b2 : Byte} {i : Instr}
    (h : buildInstr op mode b1 b2 = some i) : i.operation = op ∧ i.mode.modeClass = mode := by
  cases op <;> cases mode <;> cases h <;> exact ⟨rfl, rfl⟩

/-- The operand bytes of what is built are the bytes it was built from, as many as the format has. -/
theorem buildInstr_bytes {op : Operation} {mode : ModeClass} {b1 b2 : Byte} {i : Instr}
    (h : buildInstr op mode b1 b2 = some i) : i.mode.bytes = [b1, b2].take mode.format.operandBytes := by
  cases op <;> cases mode <;> cases h <;>
    first | rfl | (simp only [Instr.mode, AddressingMode.bytes, MemMode.bytes, Laws.loByte_wordOf, Laws.hiByte_wordOf]; rfl)

/-- A decoded opcode byte is a supported row of the table that lists the byte. -/
theorem decodeOpcode_some {t : OpcodeTable} {b : Byte} {r : OpcodeRow} (h : decodeOpcode t b = some r) :
    r ∈ t ∧ r.opcode = b ∧ r.supported = true := by
  unfold decodeOpcode at h
  split at h
  · next q hq =>
    split at h
    · next hs =>
      cases h
      exact ⟨List.mem_of_find?_eq_some hq, by simpa using List.find?_some hq, hs⟩
    · cases h
  · cases h

/-- A row chosen for an operation and a mode class is a row of the table with that pair. -/
theorem OpcodeTable.rowFor_some {t : OpcodeTable} {op : Operation} {mode : ModeClass} {r : OpcodeRow}
    (h : t.rowFor op mode = some r) : r ∈ t ∧ r.operation = op ∧ r.mode = mode := by
  have hp := List.find?_some h
  simp only [Bool.and_eq_true, decide_eq_true_eq] at hp
  exact ⟨List.mem_of_find?_eq_some h, hp⟩

/-- In a table in order, two rows with one opcode byte are one row. -/
theorem OpcodeTable.wf_opcode_unique {t : OpcodeTable} (h : t.wf = true) {r q : OpcodeRow} (hr : r ∈ t) (hq : q ∈ t)
    (he : r.opcode = q.opcode) : r = q := by
  induction t with
  | nil => cases hr
  | cons p rest ih =>
    simp only [OpcodeTable.wf, Bool.and_eq_true, List.all_eq_true, decide_eq_true_eq] at h
    rcases List.mem_cons.mp hr with rfl | hr'
    · rcases List.mem_cons.mp hq with rfl | hq'
      · rfl
      · exact absurd he.symm (h.1.2 q hq').1
    · rcases List.mem_cons.mp hq with rfl | hq'
      · exact absurd he (h.1.2 r hr').1
      · exact ih h.2 hr' hq'

/-- In a table in order, two rows with one operation and mode class are one row. -/
theorem OpcodeTable.wf_form_unique {t : OpcodeTable} (h : t.wf = true) {r q : OpcodeRow} (hr : r ∈ t) (hq : q ∈ t)
    (ho : r.operation = q.operation) (hm : r.mode = q.mode) : r = q := by
  induction t with
  | nil => cases hr
  | cons p rest ih =>
    simp only [OpcodeTable.wf, Bool.and_eq_true, List.all_eq_true, decide_eq_true_eq] at h
    rcases List.mem_cons.mp hr with rfl | hr'
    · rcases List.mem_cons.mp hq with rfl | hq'
      · rfl
      · exact absurd (h.1.2 q hq').2 (by simp [ho, hm])
    · rcases List.mem_cons.mp hq with rfl | hq'
      · exact absurd (h.1.2 r hr').2 (by simp [ho, hm])
      · exact ih h.2 hr' hq'

/-- In a table in order every row is supported. -/
theorem OpcodeTable.wf_supported {t : OpcodeTable} (h : t.wf = true) {r : OpcodeRow} (hr : r ∈ t) :
    r.supported = true := by
  induction t with
  | nil => cases hr
  | cons p rest ih =>
    simp only [OpcodeTable.wf, Bool.and_eq_true] at h
    rcases List.mem_cons.mp hr with rfl | hr'
    · exact h.1.1
    · exact ih h.2 hr'

/-- In a table in order the decoder finds every row by its opcode byte. -/
theorem decodeOpcode_of_mem {t : OpcodeTable} (h : t.wf = true) {r : OpcodeRow} (hr : r ∈ t) :
    decodeOpcode t r.opcode = some r := by
  unfold decodeOpcode
  cases hf : t.find? fun q => decide (q.opcode = r.opcode) with
  | none => exact absurd (List.find?_eq_none.mp hf r hr) (by simp)
  | some q =>
    have he : q.opcode = r.opcode := by simpa using List.find?_some hf
    have : q = r := OpcodeTable.wf_opcode_unique h (List.mem_of_find?_eq_some hf) hr he
    subst this
    simp [OpcodeTable.wf_supported h hr]

end Sys2Proof
end

