-- ==== Sys2Proof/Laws/Flags.lean ====
section
/-! SUPPORT. The laws of the FlagEngine (10_state.md R18, R20): reading back a written flag, every other flag untouched;
which flags each flag computation writes. -/

namespace Sys2Proof.Machine

@[simp] theorem Flags.read_u (p : Flags) : p.read .u = true := rfl

/-- A written flag reads back, but for the unused bit. -/
theorem Flags.read_write_same (p : Flags) {f : FlagName} (v : Bool) (h : f ≠ .u) : (p.write f v).read f = v := by
  cases f <;> first | rfl | exact absurd rfl h

/-- A write disturbs no other flag. -/
theorem Flags.read_write_other (p : Flags) {f g : FlagName} (v : Bool) (h : g ≠ f) : (p.write f v).read g = p.read g := by
  cases f <;> cases g <;> first | rfl | exact absurd rfl h

@[simp] theorem FlagName.ofMask_mask (f : FlagName) : FlagName.ofMask f.mask = some f := by cases f <;> rfl

/-- A mask that names a flag is that flag's mask. -/
theorem FlagName.mask_of_ofMask {mask : Byte} {f : FlagName} (h : FlagName.ofMask mask = some f) : f.mask = mask := by
  have := List.find?_some h
  simpa using this

/-- Z and N are the flags `setZN` writes. -/
theorem Flags.setZN_eq (p : Flags) (r : Byte) : p.setZN r = { p with z := decide (r = 0#8), n := r.getLsbD 7 } := rfl

theorem Flags.setAdd_eq (p : Flags) (q : AddResult) : p.setAdd q = { p with c := q.c, v := q.v, z := q.z, n := q.n } := rfl

theorem Flags.setBit_eq (p : Flags) (a m : Byte) :
    p.setBit a m = { p with z := decide (a &&& m = 0#8), v := m.getLsbD 6, n := m.getLsbD 7 } := rfl

theorem Flags.setCompare_eq (p : Flags) (r m : Byte) :
    p.setCompare r m = { p with c := decide (m.toNat ≤ r.toNat), z := decide (r = m), n := (r - m).getLsbD 7 } := rfl

theorem Flags.setShift_eq (p : Flags) (m : Byte) :
    p.setShift m = { p with c := m.getLsbD 7, z := decide (shiftLeft1 m = 0#8), n := (shiftLeft1 m).getLsbD 7 } := rfl

end Sys2Proof.Machine
end

