-- ==== Sys2Proof/Laws/Memory.lean ====
section
/-! SUPPORT. The laws of a byte store: read after write, other offsets untouched, the canonical form kept
(20_memory.md R36, R51). -/

namespace Sys2Proof.Machine

theorem Memory.get_erase_same (m : Memory) (o : Nat) : Memory.get (Memory.erase m o) o = Config.unlistedByte := by
  induction m with
  | nil => rfl
  | cons e rest ih =>
    obtain ⟨k, v⟩ := e
    by_cases h : k = o <;> simp [Memory.erase, Memory.get, h, ih]

theorem Memory.get_erase_other (m : Memory) {o j : Nat} (h : j ≠ o) :
    Memory.get (Memory.erase m o) j = Memory.get m j := by
  induction m with
  | nil => rfl
  | cons e rest ih =>
    obtain ⟨k, v⟩ := e
    by_cases hk : k = o
    · have : k ≠ j := fun hj => h (hj ▸ hk)
      simp [Memory.erase, Memory.get, hk, ih, Ne.symm h]
    · simp [Memory.erase, Memory.get, hk, ih]

theorem Memory.get_insert_other (m : Memory) {o j : Nat} (v : Byte) (h : j ≠ o) :
    Memory.get (Memory.insert m o v) j = Memory.get m j := by
  induction m with
  | nil => simp [Memory.insert, Memory.get, Ne.symm h]
  | cons e rest ih =>
    obtain ⟨k, w⟩ := e
    by_cases hk : o < k
    · simp [Memory.insert, Memory.get, hk, Ne.symm h]
    · simp [Memory.insert, Memory.get, hk, ih]

/-- After an erase the inserted byte is what the offset reads as. -/
theorem Memory.get_insert_erase (m : Memory) (o : Nat) (v : Byte) :
    Memory.get (Memory.insert (Memory.erase m o) o v) o = v := by
  induction m with
  | nil => simp [Memory.erase, Memory.insert, Memory.get]
  | cons e rest ih =>
    obtain ⟨k, w⟩ := e
    by_cases hk : k = o
    · simpa [Memory.erase, hk] using ih
    · by_cases hl : o < k
      · simp [Memory.erase, Memory.insert, Memory.get, hk, hl]
      · simp [Memory.erase, Memory.insert, Memory.get, hk, hl, ih]

/-- Read after write at the same offset (20_memory.md R51). -/
@[simp] theorem Memory.get_set_same (m : Memory) (o : Nat) (v : Byte) : Memory.get (Memory.set m o v) o = v := by
  unfold Memory.set
  split
  · next h => rw [Memory.get_erase_same, h]
  · exact Memory.get_insert_erase m o v

/-- A write "changes no other offset" (20_memory.md R36). -/
theorem Memory.get_set_other (m : Memory) {o j : Nat} (v : Byte) (h : j ≠ o) :
    Memory.get (Memory.set m o v) j = Memory.get m j := by
  unfold Memory.set
  split
  · exact Memory.get_erase_other m h
  · rw [Memory.get_insert_other _ v h, Memory.get_erase_other m h]

theorem Memory.wfFrom_mono {size lo lo' : Nat} {m : Memory} (h : Memory.wfFrom size lo m = true) (hl : lo' ≤ lo) :
    Memory.wfFrom size lo' m = true := by
  cases m with
  | nil => rfl
  | cons e rest =>
    obtain ⟨k, v⟩ := e
    simp only [Memory.wfFrom, Bool.and_eq_true, decide_eq_true_eq] at h ⊢
    exact ⟨⟨⟨by omega, h.1.1.2⟩, h.1.2⟩, h.2⟩

/-- Erasing keeps the canonical form. -/
theorem Memory.wfFrom_erase {size lo : Nat} {m : Memory} (o : Nat) (h : Memory.wfFrom size lo m = true) :
    Memory.wfFrom size lo (Memory.erase m o) = true := by
  induction m generalizing lo with
  | nil => rfl
  | cons e rest ih =>
    obtain ⟨k, v⟩ := e
    simp only [Memory.wfFrom, Bool.and_eq_true, decide_eq_true_eq] at h
    by_cases hk : k = o
    · simp only [Memory.erase, hk, if_true]
      exact Memory.wfFrom_mono (ih h.2) (by omega)
    · simp only [Memory.erase, hk, if_false, Memory.wfFrom, Bool.and_eq_true, decide_eq_true_eq]
      exact ⟨h.1, ih h.2⟩

/-- Erasing an offset that is below every entry changes nothing. -/
theorem Memory.erase_below {size lo : Nat} {m : Memory} {o : Nat} (h : Memory.wfFrom size lo m = true) (hl : o < lo) :
    Memory.erase m o = m := by
  induction m generalizing lo with
  | nil => rfl
  | cons e rest ih =>
    obtain ⟨k, v⟩ := e
    simp only [Memory.wfFrom, Bool.and_eq_true, decide_eq_true_eq] at h
    have hk : k ≠ o := by omega
    simp only [Memory.erase, hk, if_false]
    rw [ih h.2 (by omega)]

/-- Inserting after an erase keeps the canonical form. -/
theorem Memory.wfFrom_insert {size lo : Nat} {m : Memory} {o : Nat} {v : Byte} (h : Memory.wfFrom size lo m = true)
    (hl : lo ≤ o) (ho : o < size) (hv : v ≠ Config.unlistedByte) :
    Memory.wfFrom size lo (Memory.insert (Memory.erase m o) o v) = true := by
  induction m generalizing lo with
  | nil => simp [Memory.erase, Memory.insert, Memory.wfFrom, hl, ho, hv]
  | cons e rest ih =>
    obtain ⟨k, w⟩ := e
    simp only [Memory.wfFrom, Bool.and_eq_true, decide_eq_true_eq] at h
    by_cases hk : k = o
    · simp only [Memory.erase, hk, if_true]
      exact ih (Memory.wfFrom_mono h.2 (by omega)) hl
    · by_cases hlt : o < k
      · simp only [Memory.erase, hk, if_false, Memory.insert, hlt, if_true]
        rw [Memory.erase_below h.2 (by omega)]
        simp only [Memory.wfFrom, Bool.and_eq_true, decide_eq_true_eq]
        exact ⟨⟨⟨hl, ho⟩, hv⟩, ⟨⟨by omega, h.1.1.2⟩, h.1.2⟩, h.2⟩
      · simp only [Memory.erase, hk, if_false, Memory.insert, hlt, Memory.wfFrom, Bool.and_eq_true, decide_eq_true_eq]
        exact ⟨h.1, ih h.2 (by omega)⟩

/-- Every write inside a store keeps its canonical form. -/
theorem Memory.wf_set {size : Nat} {m : Memory} {o : Nat} (v : Byte) (h : Memory.wf size m = true) (ho : o < size) :
    Memory.wf size (Memory.set m o v) = true := by
  unfold Memory.set Memory.wf
  split
  · exact Memory.wfFrom_erase o h
  · next hv => exact Memory.wfFrom_insert h (Nat.zero_le o) ho hv

/-- The empty store is in canonical form, as the blocks of `State.reset` are. -/
@[simp] theorem Memory.wf_nil (size : Nat) : Memory.wf size [] = true := rfl

end Sys2Proof.Machine
end

