-- ==== Sys2Proof/Laws/State.lean ====
section
/-! SUPPORT. One lemma per field per update of State, each true by definition. -/

namespace Sys2Proof.Machine

@[simp] theorem State.setA_a (s : State) (v : Byte) : (s.setA v).a = v := rfl
@[simp] theorem State.setA_x (s : State) (v : Byte) : (s.setA v).x = s.x := rfl
@[simp] theorem State.setA_y (s : State) (v : Byte) : (s.setA v).y = s.y := rfl
@[simp] theorem State.setA_sp (s : State) (v : Byte) : (s.setA v).sp = s.sp := rfl
@[simp] theorem State.setA_pc (s : State) (v : Byte) : (s.setA v).pc = s.pc := rfl
@[simp] theorem State.setA_p (s : State) (v : Byte) : (s.setA v).p = s.p := rfl
@[simp] theorem State.setA_run (s : State) (v : Byte) : (s.setA v).run = s.run := rfl
@[simp] theorem State.setA_blockA (s : State) (v : Byte) : (s.setA v).blockA = s.blockA := rfl
@[simp] theorem State.setA_blockB (s : State) (v : Byte) : (s.setA v).blockB = s.blockB := rfl
@[simp] theorem State.setA_draws (s : State) (v : Byte) : (s.setA v).draws = s.draws := rfl
@[simp] theorem State.setA_cfg (s : State) (v : Byte) : (s.setA v).cfg = s.cfg := rfl

@[simp] theorem State.setX_a (s : State) (v : Byte) : (s.setX v).a = s.a := rfl
@[simp] theorem State.setX_x (s : State) (v : Byte) : (s.setX v).x = v := rfl
@[simp] theorem State.setX_y (s : State) (v : Byte) : (s.setX v).y = s.y := rfl
@[simp] theorem State.setX_sp (s : State) (v : Byte) : (s.setX v).sp = s.sp := rfl
@[simp] theorem State.setX_pc (s : State) (v : Byte) : (s.setX v).pc = s.pc := rfl
@[simp] theorem State.setX_p (s : State) (v : Byte) : (s.setX v).p = s.p := rfl
@[simp] theorem State.setX_run (s : State) (v : Byte) : (s.setX v).run = s.run := rfl
@[simp] theorem State.setX_blockA (s : State) (v : Byte) : (s.setX v).blockA = s.blockA := rfl
@[simp] theorem State.setX_blockB (s : State) (v : Byte) : (s.setX v).blockB = s.blockB := rfl
@[simp] theorem State.setX_draws (s : State) (v : Byte) : (s.setX v).draws = s.draws := rfl
@[simp] theorem State.setX_cfg (s : State) (v : Byte) : (s.setX v).cfg = s.cfg := rfl

@[simp] theorem State.setY_a (s : State) (v : Byte) : (s.setY v).a = s.a := rfl
@[simp] theorem State.setY_x (s : State) (v : Byte) : (s.setY v).x = s.x := rfl
@[simp] theorem State.setY_y (s : State) (v : Byte) : (s.setY v).y = v := rfl
@[simp] theorem State.setY_sp (s : State) (v : Byte) : (s.setY v).sp = s.sp := rfl
@[simp] theorem State.setY_pc (s : State) (v : Byte) : (s.setY v).pc = s.pc := rfl
@[simp] theorem State.setY_p (s : State) (v : Byte) : (s.setY v).p = s.p := rfl
@[simp] theorem State.setY_run (s : State) (v : Byte) : (s.setY v).run = s.run := rfl
@[simp] theorem State.setY_blockA (s : State) (v : Byte) : (s.setY v).blockA = s.blockA := rfl
@[simp] theorem State.setY_blockB (s : State) (v : Byte) : (s.setY v).blockB = s.blockB := rfl
@[simp] theorem State.setY_draws (s : State) (v : Byte) : (s.setY v).draws = s.draws := rfl
@[simp] theorem State.setY_cfg (s : State) (v : Byte) : (s.setY v).cfg = s.cfg := rfl

@[simp] theorem State.setFlags_a (s : State) (q : Flags) : (s.setFlags q).a = s.a := rfl
@[simp] theorem State.setFlags_x (s : State) (q : Flags) : (s.setFlags q).x = s.x := rfl
@[simp] theorem State.setFlags_y (s : State) (q : Flags) : (s.setFlags q).y = s.y := rfl
@[simp] theorem State.setFlags_sp (s : State) (q : Flags) : (s.setFlags q).sp = s.sp := rfl
@[simp] theorem State.setFlags_pc (s : State) (q : Flags) : (s.setFlags q).pc = s.pc := rfl
@[simp] theorem State.setFlags_p (s : State) (q : Flags) : (s.setFlags q).p = q := rfl
@[simp] theorem State.setFlags_run (s : State) (q : Flags) : (s.setFlags q).run = s.run := rfl
@[simp] theorem State.setFlags_blockA (s : State) (q : Flags) : (s.setFlags q).blockA = s.blockA := rfl
@[simp] theorem State.setFlags_blockB (s : State) (q : Flags) : (s.setFlags q).blockB = s.blockB := rfl
@[simp] theorem State.setFlags_draws (s : State) (q : Flags) : (s.setFlags q).draws = s.draws := rfl
@[simp] theorem State.setFlags_cfg (s : State) (q : Flags) : (s.setFlags q).cfg = s.cfg := rfl

@[simp] theorem State.setPc_a (s : State) (v : Addr) : (s.setPc v).a = s.a := rfl
@[simp] theorem State.setPc_x (s : State) (v : Addr) : (s.setPc v).x = s.x := rfl
@[simp] theorem State.setPc_y (s : State) (v : Addr) : (s.setPc v).y = s.y := rfl
@[simp] theorem State.setPc_sp (s : State) (v : Addr) : (s.setPc v).sp = s.sp := rfl
@[simp] theorem State.setPc_pc (s : State) (v : Addr) : (s.setPc v).pc = v := rfl
@[simp] theorem State.setPc_p (s : State) (v : Addr) : (s.setPc v).p = s.p := rfl
@[simp] theorem State.setPc_run (s : State) (v : Addr) : (s.setPc v).run = s.run := rfl
@[simp] theorem State.setPc_blockA (s : State) (v : Addr) : (s.setPc v).blockA = s.blockA := rfl
@[simp] theorem State.setPc_blockB (s : State) (v : Addr) : (s.setPc v).blockB = s.blockB := rfl
@[simp] theorem State.setPc_draws (s : State) (v : Addr) : (s.setPc v).draws = s.draws := rfl
@[simp] theorem State.setPc_cfg (s : State) (v : Addr) : (s.setPc v).cfg = s.cfg := rfl

@[simp] theorem State.setRun_a (s : State) (r : RunState) : (s.setRun r).a = s.a := rfl
@[simp] theorem State.setRun_x (s : State) (r : RunState) : (s.setRun r).x = s.x := rfl
@[simp] theorem State.setRun_y (s : State) (r : RunState) : (s.setRun r).y = s.y := rfl
@[simp] theorem State.setRun_sp (s : State) (r : RunState) : (s.setRun r).sp = s.sp := rfl
@[simp] theorem State.setRun_pc (s : State) (r : RunState) : (s.setRun r).pc = s.pc := rfl
@[simp] theorem State.setRun_p (s : State) (r : RunState) : (s.setRun r).p = s.p := rfl
@[simp] theorem State.setRun_run (s : State) (r : RunState) : (s.setRun r).run = r := rfl
@[simp] theorem State.setRun_blockA (s : State) (r : RunState) : (s.setRun r).blockA = s.blockA := rfl
@[simp] theorem State.setRun_blockB (s : State) (r : RunState) : (s.setRun r).blockB = s.blockB := rfl
@[simp] theorem State.setRun_draws (s : State) (r : RunState) : (s.setRun r).draws = s.draws := rfl
@[simp] theorem State.setRun_cfg (s : State) (r : RunState) : (s.setRun r).cfg = s.cfg := rfl

@[simp] theorem State.setBlockA_a (s : State) (m : Memory) : (s.setBlockA m).a = s.a := rfl
@[simp] theorem State.setBlockA_x (s : State) (m : Memory) : (s.setBlockA m).x = s.x := rfl
@[simp] theorem State.setBlockA_y (s : State) (m : Memory) : (s.setBlockA m).y = s.y := rfl
@[simp] theorem State.setBlockA_sp (s : State) (m : Memory) : (s.setBlockA m).sp = s.sp := rfl
@[simp] theorem State.setBlockA_pc (s : State) (m : Memory) : (s.setBlockA m).pc = s.pc := rfl
@[simp] theorem State.setBlockA_p (s : State) (m : Memory) : (s.setBlockA m).p = s.p := rfl
@[simp] theorem State.setBlockA_run (s : State) (m : Memory) : (s.setBlockA m).run = s.run := rfl
@[simp] theorem State.setBlockA_blockA (s : State) (m : Memory) : (s.setBlockA m).blockA = m := rfl
@[simp] theorem State.setBlockA_blockB (s : State) (m : Memory) : (s.setBlockA m).blockB = s.blockB := rfl
@[simp] theorem State.setBlockA_draws (s : State) (m : Memory) : (s.setBlockA m).draws = s.draws := rfl
@[simp] theorem State.setBlockA_cfg (s : State) (m : Memory) : (s.setBlockA m).cfg = s.cfg := rfl

@[simp] theorem State.setBlockB_a (s : State) (m : Memory) : (s.setBlockB m).a = s.a := rfl
@[simp] theorem State.setBlockB_x (s : State) (m : Memory) : (s.setBlockB m).x = s.x := rfl
@[simp] theorem State.setBlockB_y (s : State) (m : Memory) : (s.setBlockB m).y = s.y := rfl
@[simp] theorem State.setBlockB_sp (s : State) (m : Memory) : (s.setBlockB m).sp = s.sp := rfl
@[simp] theorem State.setBlockB_pc (s : State) (m : Memory) : (s.setBlockB m).pc = s.pc := rfl
@[simp] theorem State.setBlockB_p (s : State) (m : Memory) : (s.setBlockB m).p = s.p := rfl
@[simp] theorem State.setBlockB_run (s : State) (m : Memory) : (s.setBlockB m).run = s.run := rfl
@[simp] theorem State.setBlockB_blockA (s : State) (m : Memory) : (s.setBlockB m).blockA = s.blockA := rfl
@[simp] theorem State.setBlockB_blockB (s : State) (m : Memory) : (s.setBlockB m).blockB = m := rfl
@[simp] theorem State.setBlockB_draws (s : State) (m : Memory) : (s.setBlockB m).draws = s.draws := rfl
@[simp] theorem State.setBlockB_cfg (s : State) (m : Memory) : (s.setBlockB m).cfg = s.cfg := rfl

@[simp] theorem State.nextDraw_a (s : State) : (s.nextDraw).a = s.a := rfl
@[simp] theorem State.nextDraw_x (s : State) : (s.nextDraw).x = s.x := rfl
@[simp] theorem State.nextDraw_y (s : State) : (s.nextDraw).y = s.y := rfl
@[simp] theorem State.nextDraw_sp (s : State) : (s.nextDraw).sp = s.sp := rfl
@[simp] theorem State.nextDraw_pc (s : State) : (s.nextDraw).pc = s.pc := rfl
@[simp] theorem State.nextDraw_p (s : State) : (s.nextDraw).p = s.p := rfl
@[simp] theorem State.nextDraw_run (s : State) : (s.nextDraw).run = s.run := rfl
@[simp] theorem State.nextDraw_blockA (s : State) : (s.nextDraw).blockA = s.blockA := rfl
@[simp] theorem State.nextDraw_blockB (s : State) : (s.nextDraw).blockB = s.blockB := rfl
@[simp] theorem State.nextDraw_draws (s : State) : (s.nextDraw).draws = s.draws + 1 := rfl
@[simp] theorem State.nextDraw_cfg (s : State) : (s.nextDraw).cfg = s.cfg := rfl

@[simp] theorem State.raise_a (s : State) (e : CpuError) : (s.raise e).a = s.a := rfl
@[simp] theorem State.raise_x (s : State) (e : CpuError) : (s.raise e).x = s.x := rfl
@[simp] theorem State.raise_y (s : State) (e : CpuError) : (s.raise e).y = s.y := rfl
@[simp] theorem State.raise_sp (s : State) (e : CpuError) : (s.raise e).sp = s.sp := rfl
@[simp] theorem State.raise_pc (s : State) (e : CpuError) : (s.raise e).pc = s.pc := rfl
@[simp] theorem State.raise_p (s : State) (e : CpuError) : (s.raise e).p = s.p := rfl
@[simp] theorem State.raise_run (s : State) (e : CpuError) : (s.raise e).run = .halted e := rfl
@[simp] theorem State.raise_blockA (s : State) (e : CpuError) : (s.raise e).blockA = s.blockA := rfl
@[simp] theorem State.raise_blockB (s : State) (e : CpuError) : (s.raise e).blockB = s.blockB := rfl
@[simp] theorem State.raise_draws (s : State) (e : CpuError) : (s.raise e).draws = s.draws := rfl
@[simp] theorem State.raise_cfg (s : State) (e : CpuError) : (s.raise e).cfg = s.cfg := rfl

@[simp] theorem State.advance_a (s : State) (n : Nat) : (s.advance n).a = s.a := rfl
@[simp] theorem State.advance_x (s : State) (n : Nat) : (s.advance n).x = s.x := rfl
@[simp] theorem State.advance_y (s : State) (n : Nat) : (s.advance n).y = s.y := rfl
@[simp] theorem State.advance_sp (s : State) (n : Nat) : (s.advance n).sp = s.sp := rfl
@[simp] theorem State.advance_pc (s : State) (n : Nat) : (s.advance n).pc = s.pc + BitVec.ofNat 16 n := rfl
@[simp] theorem State.advance_p (s : State) (n : Nat) : (s.advance n).p = s.p := rfl
@[simp] theorem State.advance_run (s : State) (n : Nat) : (s.advance n).run = s.run := rfl
@[simp] theorem State.advance_blockA (s : State) (n : Nat) : (s.advance n).blockA = s.blockA := rfl
@[simp] theorem State.advance_blockB (s : State) (n : Nat) : (s.advance n).blockB = s.blockB := rfl
@[simp] theorem State.advance_draws (s : State) (n : Nat) : (s.advance n).draws = s.draws := rfl
@[simp] theorem State.advance_cfg (s : State) (n : Nat) : (s.advance n).cfg = s.cfg := rfl

@[simp] theorem State.loadImage_a (s : State) (m : Memory) : (s.loadImage m).a = s.a := rfl
@[simp] theorem State.loadImage_x (s : State) (m : Memory) : (s.loadImage m).x = s.x := rfl
@[simp] theorem State.loadImage_y (s : State) (m : Memory) : (s.loadImage m).y = s.y := rfl
@[simp] theorem State.loadImage_sp (s : State) (m : Memory) : (s.loadImage m).sp = s.sp := rfl
@[simp] theorem State.loadImage_pc (s : State) (m : Memory) : (s.loadImage m).pc = s.pc := rfl
@[simp] theorem State.loadImage_p (s : State) (m : Memory) : (s.loadImage m).p = s.p := rfl
@[simp] theorem State.loadImage_run (s : State) (m : Memory) : (s.loadImage m).run = s.run := rfl
@[simp] theorem State.loadImage_blockA (s : State) (m : Memory) : (s.loadImage m).blockA = s.blockA := rfl
@[simp] theorem State.loadImage_blockB (s : State) (m : Memory) : (s.loadImage m).blockB = s.blockB := rfl
@[simp] theorem State.loadImage_draws (s : State) (m : Memory) : (s.loadImage m).draws = s.draws := rfl
@[simp] theorem State.loadImage_cfg (s : State) (m : Memory) : (s.loadImage m).cfg = { s.cfg with image := m } := rfl

end Sys2Proof.Machine
end

