-- ==== Sys2Proof/Laws/Ops.lean ====
section
/-! SUPPORT. What the Bus operations, raising an error and the reset sequence can do (20_memory.md R32 to R35,
60_exceptions.md R155, 70_reset_and_hazards.md R180). -/

namespace Sys2Proof.Machine

/-! A byte read looks at the configuration and the blocks alone. -/

/-- Two states with the same stores and configuration read the same bytes. -/
theorem State.readByte_congr {s t : State} (hc : t.cfg = s.cfg) (ha : t.blockA = s.blockA) (hb : t.blockB = s.blockB)
    (a : Addr) : t.readByte a = s.readByte a := by
  simp only [State.readByte, hc, ha, hb]

@[simp] theorem State.readByte_setA (s : State) (v : Byte) (a : Addr) : (s.setA v).readByte a = s.readByte a := rfl
@[simp] theorem State.readByte_setX (s : State) (v : Byte) (a : Addr) : (s.setX v).readByte a = s.readByte a := rfl
@[simp] theorem State.readByte_setY (s : State) (v : Byte) (a : Addr) : (s.setY v).readByte a = s.readByte a := rfl
@[simp] theorem State.readByte_setFlags (s : State) (q : Flags) (a : Addr) : (s.setFlags q).readByte a = s.readByte a := rfl
@[simp] theorem State.readByte_setPc (s : State) (v : Addr) (a : Addr) : (s.setPc v).readByte a = s.readByte a := rfl
@[simp] theorem State.readByte_setRun (s : State) (r : RunState) (a : Addr) : (s.setRun r).readByte a = s.readByte a := rfl
@[simp] theorem State.readByte_raise (s : State) (e : CpuError) (a : Addr) : (s.raise e).readByte a = s.readByte a := rfl
@[simp] theorem State.readByte_advance (s : State) (n : Nat) (a : Addr) : (s.advance n).readByte a = s.readByte a := rfl
@[simp] theorem State.readByte_nextDraw (s : State) (a : Addr) : s.nextDraw.readByte a = s.readByte a := rfl

/-- An address of a range is its base plus an offset below its size. -/
theorem inRange_offset {r : AddrRange} {a : Addr} (h : inRange r a = true) :
    a.toNat = r.base + (a.toNat - r.base) ∧ a.toNat - r.base < r.size := by
  simp only [inRange, Bool.and_eq_true, decide_eq_true_eq] at h
  omega

/-- The four cases of the address decode, each with what it says of the address. -/
theorem regionOf_cases (c : Cfg) (a : Addr) :
    (∃ o, regionOf c a = .cart o ∧ a.toNat = c.cart.base + o ∧ o < c.cart.size) ∨
    (∃ o, regionOf c a = .blockA o ∧ a.toNat = c.pa.base + o ∧ o < c.pa.size) ∨
    (∃ o, regionOf c a = .blockB o ∧ a.toNat = c.pb.base + o ∧ o < c.pb.size) ∨
    regionOf c a = .unmapped := by
  by_cases h1 : inRange c.cart a = true
  · exact .inl ⟨_, by simp only [regionOf, h1, if_true], inRange_offset h1⟩
  · by_cases h2 : inRange c.pa a = true
    · exact .inr (.inl ⟨_, by simp [regionOf, h1, h2], inRange_offset h2⟩)
    · by_cases h3 : inRange c.pb a = true
      · exact .inr (.inr (.inl ⟨_, by simp [regionOf, h1, h2, h3], inRange_offset h3⟩))
      · exact .inr (.inr (.inr (by simp [regionOf, h1, h2, h3])))

/-- An address in block A is the block's base plus its offset, which is below the block's size. -/
theorem regionOf_blockA {c : Cfg} {a : Addr} {o : Nat} (h : regionOf c a = .blockA o) :
    a.toNat = c.pa.base + o ∧ o < c.pa.size := by
  rcases regionOf_cases c a with ⟨q, hq, h'⟩ | ⟨q, hq, h'⟩ | ⟨q, hq, h'⟩ | hq <;> rw [h] at hq <;> cases hq
  exact h'

/-- An address in block B is the block's base plus its offset, which is below the block's size. -/
theorem regionOf_blockB {c : Cfg} {a : Addr} {o : Nat} (h : regionOf c a = .blockB o) :
    a.toNat = c.pb.base + o ∧ o < c.pb.size := by
  rcases regionOf_cases c a with ⟨q, hq, h'⟩ | ⟨q, hq, h'⟩ | ⟨q, hq, h'⟩ | hq <;> rw [h] at hq <;> cases hq
  exact h'

/-- An address in the cartridge is its base plus the offset, which is below the cartridge's size. -/
theorem regionOf_cart {c : Cfg} {a : Addr} {o : Nat} (h : regionOf c a = .cart o) :
    a.toNat = c.cart.base + o ∧ o < c.cart.size := by
  rcases regionOf_cases c a with ⟨q, hq, h'⟩ | ⟨q, hq, h'⟩ | ⟨q, hq, h'⟩ | hq <;> rw [h] at hq <;> cases hq
  exact h'

/-- A byte read fails for an unmapped address alone, and says so. -/
theorem State.readByte_error {s : State} {a : Addr} {e : CpuError} (h : s.readByte a = .error e) :
    e = .busFault a .read .unmapped ∧ regionOf s.cfg a = .unmapped := by
  unfold State.readByte at h
  split at h <;> cases h
  exact ⟨rfl, ‹_›⟩

/-- A read of an unmapped address fails. -/
theorem State.readByte_unmapped {s : State} {a : Addr} (h : regionOf s.cfg a = .unmapped) :
    s.readByte a = .error (.busFault a .read .unmapped) := by
  simp only [State.readByte, h]

/-- A read of a mapped address answers. -/
theorem State.readByte_ok_of_mapped {s : State} {a : Addr} (h : regionOf s.cfg a ≠ .unmapped) :
    ∃ v, s.readByte a = .ok v := by
  cases hr : s.readByte a with
  | ok v => exact ⟨v, rfl⟩
  | error e => exact absurd (State.readByte_error hr).2 h

/-- A word read fails exactly with its first byte read that fails, the low one before the high one. -/
theorem State.readPair_error {s : State} {lo hi : Addr} {e : CpuError} :
    s.readPair lo hi = .error e ↔ s.readByte lo = .error e ∨ ∃ l, s.readByte lo = .ok l ∧ s.readByte hi = .error e := by
  unfold State.readPair
  cases s.readByte lo with
  | error f => simp
  | ok l => cases s.readByte hi <;> simp

/-- A pair of bytes that both read is their word. -/
theorem State.readPair_ok {s : State} {lo hi : Addr} {l h : Byte} (hl : s.readByte lo = .ok l)
    (hh : s.readByte hi = .ok h) : s.readPair lo hi = .ok (wordOf l h) := by
  simp only [State.readPair, hl, hh]

/-- What a byte write can do: store in block A, store in block B, or fail. -/
theorem State.writeByte_cases (s : State) (a : Addr) (v : Byte) :
    (∃ o, regionOf s.cfg a = .blockA o ∧ s.writeByte a v = .ok (s.setBlockA (Memory.set s.blockA o v))) ∨
    (∃ o, regionOf s.cfg a = .blockB o ∧ s.writeByte a v = .ok (s.setBlockB (Memory.set s.blockB o v))) ∨
    (∃ o, regionOf s.cfg a = .cart o ∧ s.writeByte a v = .error (.busFault a .write .readOnly)) ∨
    (regionOf s.cfg a = .unmapped ∧ s.writeByte a v = .error (.busFault a .write .unmapped)) := by
  unfold State.writeByte
  split <;> simp_all

/-- A byte stored in block A is read back, and every other address reads as before. -/
theorem State.readByte_setBlockA {s : State} {a : Addr} {o : Nat} (v : Byte) (h : regionOf s.cfg a = .blockA o)
    (b : Addr) :
    (s.setBlockA (Memory.set s.blockA o v)).readByte b = if b = a then .ok v else s.readByte b := by
  by_cases hb : b = a
  · subst hb
    simp only [State.readByte, State.setBlockA_cfg, State.setBlockA_blockA, h, Memory.get_set_same, if_true]
  · simp only [State.readByte, State.setBlockA_cfg, State.setBlockA_blockA, State.setBlockA_blockB, hb, if_false]
    split <;> try rfl
    next o' ho' =>
      have hne : o' ≠ o := fun he => hb (BitVec.eq_of_toNat_eq (by
        rw [(regionOf_blockA ho').1, (regionOf_blockA h).1, he]))
      rw [Memory.get_set_other _ _ hne]

/-- A byte stored in block B is read back, and every other address reads as before. -/
theorem State.readByte_setBlockB {s : State} {a : Addr} {o : Nat} (v : Byte) (h : regionOf s.cfg a = .blockB o)
    (b : Addr) :
    (s.setBlockB (Memory.set s.blockB o v)).readByte b = if b = a then .ok v else s.readByte b := by
  by_cases hb : b = a
  · subst hb
    simp only [State.readByte, State.setBlockB_cfg, State.setBlockB_blockB, h, Memory.get_set_same, if_true]
  · simp only [State.readByte, State.setBlockB_cfg, State.setBlockB_blockA, State.setBlockB_blockB, hb, if_false]
    split <;> try rfl
    next o' ho' =>
      have hne : o' ≠ o := fun he => hb (BitVec.eq_of_toNat_eq (by
        rw [(regionOf_blockB ho').1, (regionOf_blockB h).1, he]))
      rw [Memory.get_set_other _ _ hne]

/-- What the reset sequence can do (70_reset_and_hazards.md R180, R182). -/
theorem State.resetSequence_cases {s t : State} (h : s.resetSequence = .next t) :
    (∃ v, Cfg.wf s.cfg = true ∧ s.readWord s.cfg.resetVector = .ok v ∧ t = (s.setPc v).setRun .running) ∨
    (∃ e, s.readWord s.cfg.resetVector = .error e ∧ t = s.raise e) := by
  unfold State.resetSequence at h
  split at h
  · split at h
    · next e he => cases h; exact .inr ⟨e, he, rfl⟩
    · next v hv =>
      split at h
      · next hw => cases h; exact .inl ⟨v, hw, hv, rfl⟩
      · cases h
  · cases h

/-- All constraints of 00_scope.md R5 hold, those on the stores among them. -/
theorem Cfg.storesOk_of_wf {c : Cfg} (h : Cfg.wf c = true) : Cfg.storesOk c = true := by
  simp only [Cfg.wf, Bool.and_eq_true] at h
  exact h.1.1

end Sys2Proof.Machine
end

