-- ==== Sys2Proof/Laws/Operands.lean ====
section
/-! SUPPORT. What the AddressResolver and the instruction shapes can do (40_step_and_addressing.md R78, R83 to R92). -/

namespace Sys2Proof.Machine

theorem toNat_zext16 (v : Byte) : (zext16 v).toNat = v.toNat := by
  have h : v.toNat < 256 := v.isLt
  simp only [zext16, BitVec.toNat_setWidth]
  omega

/-- The address of the high byte of a zero-page pointer (40_step_and_addressing.md R89, 93_implementation_defined.md U6). -/
def State.pointerHigh (s : State) (zp : Byte) : Addr :=
  if s.cfg.zpPtrWrap then zext16 (zp + 1#8) else zext16 zp + 1#16

theorem State.toNat_pointerHigh (s : State) (zp : Byte) :
    (s.pointerHigh zp).toNat = if s.cfg.zpPtrWrap then (zp.toNat + 1) % 0x100 else zp.toNat + 1 := by
  have h : zp.toNat < 256 := zp.isLt
  unfold State.pointerHigh
  split
  · rw [toNat_zext16, BitVec.toNat_add]
    rfl
  · rw [BitVec.toNat_add, toNat_zext16]
    simp only [BitVec.toNat_ofNat]
    omega

/-- A pointer is a pair of bytes, for both values of ZP_PTR_WRAP. -/
theorem State.readPointer_eq (s : State) (zp : Byte) :
    s.readPointer zp = s.readPair (zext16 zp) (s.pointerHigh zp) := by
  unfold State.readPointer State.readWord State.pointerHigh
  split <;> rfl

/-- The zero-page address of the pointer that an indirect mode reads; none for the other modes. -/
def State.pointerOf (s : State) : MemMode → Option Byte
  | .indirectX v => some (v + s.x)
  | .indirectY v => some v
  | .zeroPage _ | .zeroPageX _ | .zeroPageY _ | .absolute _ | .absoluteX _ | .absoluteY _ => none

/-- Resolution fails exactly when the pointer of an indirect mode does, and with the pointer's fault. -/
theorem State.effectiveAddress_error {s : State} {m : MemMode} {e : CpuError} :
    s.effectiveAddress m = .error e ↔ ∃ zp, s.pointerOf m = some zp ∧ s.readPointer zp = .error e := by
  cases m <;> simp only [State.effectiveAddress, State.pointerOf, Option.some.injEq, exists_eq_left', reduceCtorEq,
    false_and, exists_false]
  case indirectY v => cases s.readPointer v <;> simp

/-- Resolution looks at X, Y, the configuration and the blocks alone (40_step_and_addressing.md R93). -/
theorem State.effectiveAddress_congr {s t : State} (hx : t.x = s.x) (hy : t.y = s.y) (hc : t.cfg = s.cfg)
    (ha : t.blockA = s.blockA) (hb : t.blockB = s.blockB) (m : MemMode) :
    t.effectiveAddress m = s.effectiveAddress m := by
  have hr : t.readByte = s.readByte := funext (State.readByte_congr hc ha hb)
  cases m <;> simp only [State.effectiveAddress, State.readPointer, State.readWord, State.readPair, hx, hy, hc, hr]

/-- An operand byte cannot be read exactly when its address cannot be resolved or the byte there cannot be read. -/
theorem State.loadMem_error {s : State} {m : MemMode} {e : CpuError} :
    s.loadMem m = .error e ↔
      s.effectiveAddress m = .error e ∨ ∃ ea, s.effectiveAddress m = .ok ea ∧ s.readByte ea = .error e := by
  unfold State.loadMem
  cases s.effectiveAddress m with
  | ok ea => simp
  | error f => simp

/-- The operand byte is the byte at the effective address. -/
theorem State.loadMem_ok {s : State} {m : MemMode} {v : Byte} :
    s.loadMem m = .ok v ↔ ∃ ea, s.effectiveAddress m = .ok ea ∧ s.readByte ea = .ok v := by
  unfold State.loadMem
  cases s.effectiveAddress m with
  | ok ea => simp
  | error e => simp

/-- What an instruction that reads a memory operand can do. -/
theorem loadOp_cases (op : State → Byte → State) (m : MemMode) (s : State) :
    (∃ v, s.loadMem m = .ok v ∧ loadOp op m s = .next ((op s v).advance (AddressingMode.mem m).len)) ∨
    (∃ e, s.loadMem m = .error e ∧ loadOp op m s = .next (s.raise e)) := by
  unfold loadOp
  cases h : s.loadMem m with
  | ok v => exact .inl ⟨v, rfl, rfl⟩
  | error e => exact .inr ⟨e, rfl, rfl⟩

/-- What ASL on memory can do (42_shift.md R111): store the doubled byte in a block, or halt with nothing changed. -/
theorem shiftMem_cases (m : MemMode) (s : State) :
    (∃ ea v t, s.effectiveAddress m = .ok ea ∧ s.readByte ea = .ok v ∧ s.writeByte ea (shiftLeft1 v) = .ok t ∧
      shiftMem m s = .next ((t.setFlags (s.p.setShift v)).advance (AddressingMode.mem m).len)) ∨
    (∃ e, shiftMem m s = .next (s.raise e) ∧
      (s.loadMem m = .error e ∨
        ∃ ea o, s.effectiveAddress m = .ok ea ∧ regionOf s.cfg ea = .cart o ∧ e = .busFault ea .write .readOnly)) := by
  unfold shiftMem
  cases he : s.effectiveAddress m with
  | error e => exact .inr ⟨e, rfl, .inl (State.loadMem_error.2 (.inl he))⟩
  | ok ea =>
    cases hr : s.readByte ea with
    | error e => exact .inr ⟨e, by simp only [hr], .inl (State.loadMem_error.2 (.inr ⟨ea, he, hr⟩))⟩
    | ok v =>
      rcases State.writeByte_cases s ea (shiftLeft1 v) with ⟨o, h, hw⟩ | ⟨o, h, hw⟩ | ⟨o, h, hw⟩ | ⟨h, hw⟩
      · exact .inl ⟨ea, v, _, rfl, hr, hw, by simp only [hr, hw]⟩
      · exact .inl ⟨ea, v, _, rfl, hr, hw, by simp only [hr, hw]⟩
      · exact .inr ⟨_, by simp only [hr, hw], .inr ⟨ea, o, rfl, h, rfl⟩⟩
      · rw [State.readByte_unmapped h] at hr
        cases hr

/-- A branch writes `pc` alone (43_branches.md R115). -/
theorem branchOp_eq (taken : Bool) (d : Byte) (s : State) :
    branchOp taken d s = .next (s.setPc (if taken then s.pc + 2#16 + sext16 d else s.pc + 2#16)) := by
  cases taken <;> rfl

end Sys2Proof.Machine
end

