-- ==== Sys2Proof/Laws/Exec.lean ====
section
/-! SUPPORT. `exec` by shape: which shared operation each constructor's meaning is, said once for all of them. -/

namespace Sys2Proof.Machine

/-- The operation on an operand byte that an instruction runs, for those that read one. -/
def readOpOf : Operation → Option (State → Byte → State)
  | .adc => some adcOp
  | .and => some andOp
  | .bit => some bitOp
  | .cmp => some cmpOp
  | .cpx => some cpxOp
  | .cpy => some cpyOp
  | _ => none

/-- The operation of an Implied instruction. -/
def impliedOpOf : Operation → Option (State → State)
  | .clc => some (clearFlag .c)
  | .cld => some (clearFlag .d)
  | .cli => some (clearFlag .i)
  | .clv => some (clearFlag .v)
  | .inx => some fun s => putX s (s.x + 1#8)
  | .iny => some fun s => putY s (s.y + 1#8)
  | .dex => some fun s => putX s (s.x - 1#8)
  | .dey => some fun s => putY s (s.y - 1#8)
  | _ => none

/-- Whether a branch is taken. -/
def takenOf (p : Flags) : Operation → Option Bool
  | .bcc => some !(p.read .c)
  | .bcs => some (p.read .c)
  | .beq => some (p.read .z)
  | .bne => some !(p.read .z)
  | .bmi => some (p.read .n)
  | .bpl => some !(p.read .n)
  | .bvc => some !(p.read .v)
  | .bvs => some (p.read .v)
  | _ => none

/-- Every instruction is an operand read (immediate or memory), a shift (of A or of memory), a branch or an Implied
operation, and `exec` runs that shape. -/
theorem exec_shape (i : Instr) (s : State) :
    (∃ op v, readOpOf i.operation = some op ∧ i.mode = .immediate v ∧ exec i s = immOp op v s) ∨
    (∃ op m, readOpOf i.operation = some op ∧ i.mode = .mem m ∧ exec i s = loadOp op m s) ∨
    (i = .aslAcc ∧ exec i s = execAslAcc s) ∨
    (∃ m, i.operation = .asl ∧ i.mode = .mem m ∧ exec i s = shiftMem m s) ∨
    (∃ taken d, takenOf s.p i.operation = some taken ∧ i.mode = .relative d ∧ exec i s = branchOp taken d s) ∨
    (∃ op, impliedOpOf i.operation = some op ∧ i.mode = .implied ∧ exec i s = impliedOp op s) := by
  cases i
  case adcImm v => exact .inl ⟨_, _, rfl, rfl, rfl⟩
  case adcZp v => exact .inr (.inl ⟨_, _, rfl, rfl, rfl⟩)
  case adcZpx v => exact .inr (.inl ⟨_, _, rfl, rfl, rfl⟩)
  case adcZpy v => exact .inr (.inl ⟨_, _, rfl, rfl, rfl⟩)
  case adcAbs w => exact .inr (.inl ⟨_, _, rfl, rfl, rfl⟩)
  case adcAbsx w => exact .inr (.inl ⟨_, _, rfl, rfl, rfl⟩)
  case adcAbsy w => exact .inr (.inl ⟨_, _, rfl, rfl, rfl⟩)
  case adcIndx v => exact .inr (.inl ⟨_, _, rfl, rfl, rfl⟩)
  case adcIndy v => exact .inr (.inl ⟨_, _, rfl, rfl, rfl⟩)
  case andImm v => exact .inl ⟨_, _, rfl, rfl, rfl⟩
  case andZp v => exact .inr (.inl ⟨_, _, rfl, rfl, rfl⟩)
  case andZpx v => exact .inr (.inl ⟨_, _, rfl, rfl, rfl⟩)
  case andZpy v => exact .inr (.inl ⟨_, _, rfl, rfl, rfl⟩)
  case andAbs w => exact .inr (.inl ⟨_, _, rfl, rfl, rfl⟩)
  case andAbsx w => exact .inr (.inl ⟨_, _, rfl, rfl, rfl⟩)
  case andAbsy w => exact .inr (.inl ⟨_, _, rfl, rfl, rfl⟩)
  case andIndx v => exact .inr (.inl ⟨_, _, rfl, rfl, rfl⟩)
  case andIndy v => exact .inr (.inl ⟨_, _, rfl, rfl, rfl⟩)
  case bitZp v => exact .inr (.inl ⟨_, _, rfl, rfl, rfl⟩)
  case bitZpy v => exact .inr (.inl ⟨_, _, rfl, rfl, rfl⟩)
  case bitAbs w => exact .inr (.inl ⟨_, _, rfl, rfl, rfl⟩)
  case cmpImm v => exact .inl ⟨_, _, rfl, rfl, rfl⟩
  case cmpZp v => exact .inr (.inl ⟨_, _, rfl, rfl, rfl⟩)
  case cmpZpx v => exact .inr (.inl ⟨_, _, rfl, rfl, rfl⟩)
  case cmpZpy v => exact .inr (.inl ⟨_, _, rfl, rfl, rfl⟩)
  case cmpAbs w => exact .inr (.inl ⟨_, _, rfl, rfl, rfl⟩)
  case cmpAbsx w => exact .inr (.inl ⟨_, _, rfl, rfl, rfl⟩)
  case cmpAbsy w => exact .inr (.inl ⟨_, _, rfl, rfl, rfl⟩)
  case cmpIndx v => exact .inr (.inl ⟨_, _, rfl, rfl, rfl⟩)
  case cmpIndy v => exact .inr (.inl ⟨_, _, rfl, rfl, rfl⟩)
  case cpxImm v => exact .inl ⟨_, _, rfl, rfl, rfl⟩
  case cpxZp v => exact .inr (.inl ⟨_, _, rfl, rfl, rfl⟩)
  case cpxZpy v => exact .inr (.inl ⟨_, _, rfl, rfl, rfl⟩)
  case cpxAbs w => exact .inr (.inl ⟨_, _, rfl, rfl, rfl⟩)
  case cpyImm v => exact .inl ⟨_, _, rfl, rfl, rfl⟩
  case cpyZp v => exact .inr (.inl ⟨_, _, rfl, rfl, rfl⟩)
  case cpyZpy v => exact .inr (.inl ⟨_, _, rfl, rfl, rfl⟩)
  case cpyAbs w => exact .inr (.inl ⟨_, _, rfl, rfl, rfl⟩)
  case aslAcc => exact .inr (.inr (.inl ⟨rfl, rfl⟩))
  case aslZp v => exact .inr (.inr (.inr (.inl ⟨_, rfl, rfl, rfl⟩)))
  case aslZpx v => exact .inr (.inr (.inr (.inl ⟨_, rfl, rfl, rfl⟩)))
  case aslZpy v => exact .inr (.inr (.inr (.inl ⟨_, rfl, rfl, rfl⟩)))
  case aslAbs w => exact .inr (.inr (.inr (.inl ⟨_, rfl, rfl, rfl⟩)))
  case aslAbsx w => exact .inr (.inr (.inr (.inl ⟨_, rfl, rfl, rfl⟩)))
  case bcc d => exact .inr (.inr (.inr (.inr (.inl ⟨_, _, rfl, rfl, rfl⟩))))
  case bcs d => exact .inr (.inr (.inr (.inr (.inl ⟨_, _, rfl, rfl, rfl⟩))))
  case beq d => exact .inr (.inr (.inr (.inr (.inl ⟨_, _, rfl, rfl, rfl⟩))))
  case bne d => exact .inr (.inr (.inr (.inr (.inl ⟨_, _, rfl, rfl, rfl⟩))))
  case bmi d => exact .inr (.inr (.inr (.inr (.inl ⟨_, _, rfl, rfl, rfl⟩))))
  case bpl d => exact .inr (.inr (.inr (.inr (.inl ⟨_, _, rfl, rfl, rfl⟩))))
  case bvc d => exact .inr (.inr (.inr (.inr (.inl ⟨_, _, rfl, rfl, rfl⟩))))
  case bvs d => exact .inr (.inr (.inr (.inr (.inl ⟨_, _, rfl, rfl, rfl⟩))))
  case clc => exact .inr (.inr (.inr (.inr (.inr ⟨_, rfl, rfl, rfl⟩))))
  case cld => exact .inr (.inr (.inr (.inr (.inr ⟨_, rfl, rfl, rfl⟩))))
  case cli => exact .inr (.inr (.inr (.inr (.inr ⟨_, rfl, rfl, rfl⟩))))
  case clv => exact .inr (.inr (.inr (.inr (.inr ⟨_, rfl, rfl, rfl⟩))))
  case inx => exact .inr (.inr (.inr (.inr (.inr ⟨_, rfl, rfl, rfl⟩))))
  case iny => exact .inr (.inr (.inr (.inr (.inr ⟨_, rfl, rfl, rfl⟩))))
  case dex => exact .inr (.inr (.inr (.inr (.inr ⟨_, rfl, rfl, rfl⟩))))
  case dey => exact .inr (.inr (.inr (.inr (.inr ⟨_, rfl, rfl, rfl⟩))))

/-- An operation on an operand writes A, P and the counter of free values alone. -/
theorem readOpOf_frame {o : Operation} {op : State → Byte → State} (h : readOpOf o = some op) (s : State) (m : Byte) :
    ∃ a p d, op s m = { s with a := a, p := p, draws := d } := by
  cases o <;> cases h
  · refine ⟨(adcOp s m).a, (adcOp s m).p, (adcOp s m).draws, ?_⟩
    unfold adcOp
    split <;> rfl
  all_goals exact ⟨_, _, _, rfl⟩

/-- An Implied operation writes X, Y and P alone. -/
theorem impliedOpOf_frame {o : Operation} {op : State → State} (h : impliedOpOf o = some op) (s : State) :
    ∃ x y p, op s = { s with x := x, y := y, p := p } := by
  cases o <;> cases h <;> exact ⟨_, _, _, rfl⟩

/-- What any instruction can do: halt the core with nothing else changed, or complete, still in the same run state, with
the configuration and SP as they were and the blocks as they were but for ASL on memory. -/
theorem exec_cases (i : Instr) (s : State) :
    (∃ e mode, exec i s = .next (s.raise e) ∧ i.mode = .mem mode ∧
      (((readOpOf i.operation).isSome ∨ i.operation = .asl) ∧ s.loadMem mode = .error e ∨
        ∃ ea o, i.operation = .asl ∧ s.effectiveAddress mode = .ok ea ∧ regionOf s.cfg ea = .cart o ∧
          e = .busFault ea .write .readOnly)) ∨
    (∃ t, exec i s = .next t ∧ t.run = s.run ∧ t.cfg = s.cfg ∧ t.sp = s.sp ∧
      ((t.blockA = s.blockA ∧ t.blockB = s.blockB) ∨
        ∃ mode ea v q, i.operation = .asl ∧ i.mode = .mem mode ∧ s.effectiveAddress mode = .ok ea ∧
          s.writeByte ea v = .ok q ∧ t.blockA = q.blockA ∧ t.blockB = q.blockB)) := by
  rcases exec_shape i s with ⟨op, v, ho, hm, h⟩ | ⟨op, m, ho, hm, h⟩ | ⟨hi, h⟩ | ⟨m, ho, hm, h⟩ | ⟨tk, d, ho, hm, h⟩ |
    ⟨op, ho, hm, h⟩
  · obtain ⟨a, p, d, hf⟩ := readOpOf_frame ho s v
    exact .inr ⟨_, h, by simp [hf], by simp [hf], by simp [hf], .inl ⟨by simp [hf], by simp [hf]⟩⟩
  · rcases loadOp_cases op m s with ⟨v, hv, hl⟩ | ⟨e, he, hl⟩
    · obtain ⟨a, p, d, hf⟩ := readOpOf_frame ho s v
      exact .inr ⟨_, h.trans hl, by simp [hf], by simp [hf], by simp [hf], .inl ⟨by simp [hf], by simp [hf]⟩⟩
    · exact .inl ⟨e, m, h.trans hl, hm, .inl ⟨.inl (by rw [ho]; rfl), he⟩⟩
  · exact .inr ⟨_, h, rfl, rfl, rfl, .inl ⟨rfl, rfl⟩⟩
  · rcases shiftMem_cases m s with ⟨ea, v, t, he, hr, hw, hl⟩ | ⟨e, hl, hc⟩
    · have hw' := hw
      rcases State.writeByte_cases s ea (shiftLeft1 v) with ⟨o, hg, hq⟩ | ⟨o, hg, hq⟩ | ⟨o, hg, hq⟩ | ⟨hg, hq⟩ <;>
        rw [hq] at hw' <;> cases hw' <;>
        exact .inr ⟨_, h.trans hl, rfl, rfl, rfl, .inr ⟨m, ea, _, _, ho, hm, he, hw, rfl, rfl⟩⟩
    · refine .inl ⟨e, m, h.trans hl, hm, ?_⟩
      rcases hc with hc | ⟨ea, o, hea, hg, he⟩
      · exact .inl ⟨.inr ho, hc⟩
      · exact .inr ⟨ea, o, ho, hea, hg, he⟩
  · rw [branchOp_eq] at h
    exact .inr ⟨_, h, rfl, rfl, rfl, .inl ⟨rfl, rfl⟩⟩
  · obtain ⟨x, y, p, hf⟩ := impliedOpOf_frame ho s
    exact .inr ⟨_, h, by simp [hf], by simp [hf], by simp [hf], .inl ⟨by simp [hf], by simp [hf]⟩⟩

/-- Every instruction answers a next state. -/
theorem exec_next (i : Instr) (s : State) : ∃ t, exec i s = .next t := by
  rcases exec_cases i s with ⟨e, _, h, -⟩ | ⟨t, h, -⟩
  · exact ⟨_, h⟩
  · exact ⟨t, h⟩

end Sys2Proof.Machine
end

