-- ==== Sys2Proof/Laws/Step.lean ====
section
/-! SUPPORT. What the fetch and the step can do (40_step_and_addressing.md R75, R76). -/

namespace Sys2Proof.Machine

/-- A record the decoder gives builds whatever its operand bytes are. -/
theorem buildFetched_ok {s : State} {b : Byte} {r : OpcodeRow} (h : decodeOpcode s.cfg.opcodeTable b = some r)
    (b1 b2 : Byte) : ∃ i, buildInstr r.operation r.mode b1 b2 = some i ∧ buildFetched s r b1 b2 = .ok i := by
  obtain ⟨i, hi⟩ := OpcodeRow.builds (decodeOpcode_some h).2.2 b1 b2
  exact ⟨i, hi, by simp only [buildFetched, hi]⟩

/-- What a fetch can fail with, in the order of its reads: the opcode byte unreadable; the byte without a record; the first
operand byte unreadable; the second one unreadable. -/
theorem State.fetch_error {s : State} {e : CpuError} (h : s.fetch = .error e) :
    s.readByte s.pc = .error e ∨
    ∃ b, s.readByte s.pc = .ok b ∧
      ((decodeOpcode s.cfg.opcodeTable b = none ∧ e = .invalidOpcode b s.pc) ∨
        ∃ r, decodeOpcode s.cfg.opcodeTable b = some r ∧
          ((r.mode.format ≠ .f1 ∧ s.readByte (s.pc + 1#16) = .error e) ∨
            (r.mode.format = .f3 ∧ ∃ b1, s.readByte (s.pc + 1#16) = .ok b1 ∧ s.readByte (s.pc + 2#16) = .error e))) := by
  have hb : ∀ {b r}, decodeOpcode s.cfg.opcodeTable b = some r → ∀ b1 b2, buildFetched s r b1 b2 ≠ .error e := by
    intro b r hd b1 b2
    obtain ⟨i, -, hi⟩ := buildFetched_ok hd b1 b2
    simp [hi]
  unfold State.fetch at h
  split at h
  · next he => cases h; exact .inl he
  · next b hr =>
    refine .inr ⟨b, hr, ?_⟩
    split at h
    · next hd => cases h; exact .inl ⟨hd, rfl⟩
    · next r hd =>
      refine .inr ⟨r, hd, ?_⟩
      split at h
      · exact absurd h (hb hd _ _)
      · next hf =>
        split at h
        · next he => cases h; exact .inl ⟨by simp [hf], he⟩
        · exact absurd h (hb hd _ _)
      · next hf =>
        split at h
        · next he => cases h; exact .inl ⟨by simp [hf], he⟩
        · next b1 h1 =>
          split at h
          · next he => cases h; exact .inr ⟨hf, b1, h1, he⟩
          · exact absurd h (hb hd _ _)

/-- What a step can do: it takes a next state in Running alone, by halting on the fetch's error or by running the fetched
instruction. -/
theorem step_cases {s t : State} (h : step s = .next t) :
    s.run = .running ∧
      ((∃ e, s.fetch = .error e ∧ t = s.raise e) ∨ (∃ i, s.fetch = .ok i ∧ exec i s = .next t)) := by
  unfold step at h
  split at h
  · cases h
  · cases h
  · next hr =>
    refine ⟨hr, ?_⟩
    split at h
    · next e he => cases h; exact .inl ⟨e, he, rfl⟩
    · next i hi => exact .inr ⟨i, hi, h⟩

/-- A running step on a fetched instruction runs it. -/
theorem step_of_fetch {s : State} {i : Instr} (hr : s.run = .running) (hf : s.fetch = .ok i) : step s = exec i s := by
  simp only [step, hr, hf]

/-- A running step whose fetch fails halts on its error. -/
theorem step_of_fetch_error {s : State} {e : CpuError} (hr : s.run = .running) (hf : s.fetch = .error e) :
    step s = .next (s.raise e) := by
  simp only [step, hr, hf]

end Sys2Proof.Machine
end

