-- ==== Sys2Proof/Tests/Slice0.lean ====
section
/-! SUPPORT. The author's tests. The expected values are those of spec/95_test_vectors.md (its vector is named at each test)
or are computed by hand from the rule cited; none is the model's own answer. Then, for every obligation with hypotheses,
a witness: concrete states and operands that meet them. -/

namespace Sys2Proof.Tests

open Sys2Proof.Machine Sys2Proof.Claims

/-- A running core under CFG0 at `pc`, with code at `pc` and data placed in memory; registers and flags zero. -/
def stage (pc : Addr) (code : List Byte) (data : List (Addr × Byte)) : State :=
  data.foldl (fun s d => s.placeByte d.1 d.2) (State.placeBytes { State.reset with pc := pc } pc code)

/-- What a function reads from the next state of an outcome. -/
def after {α : Type} (r : Result) (f : State → α) : Option α :=
  match r with
  | .next t => some (f t)
  | .fault _ => none
  | .refused _ => none

/-- The fault of an outcome. -/
def faultOf (r : Result) : Option Fault :=
  match r with
  | .next _ => none
  | .fault e => some e
  | .refused _ => none

/-- The refusal of an outcome. -/
def refusalOf (r : Result) : Option Refusal :=
  match r with
  | .next _ => none
  | .fault _ => none
  | .refused e => some e

/-- The flags C, Z, V, N. -/
structure Czvn where
  c : Bool
  z : Bool
  v : Bool
  n : Bool
deriving DecidableEq, Repr

/-- A and the flags C, Z, V, N. -/
structure Acc where
  a    : Byte
  czvn : Czvn
deriving DecidableEq, Repr

/-- The flags C, Z, V, N of a state. -/
def czvn (t : State) : Czvn := ⟨t.p.c, t.p.z, t.p.v, t.p.n⟩

/-- A and the flags C, Z, V, N of a state. -/
def acc (t : State) : Acc := ⟨t.a, czvn t⟩

/-- The seven flags set. -/
def allFlags : Flags := { c := true, z := true, i := true, d := true, b := true, v := true, n := true }

/-! ### Well-formedness: the one check, and terms it refuses -/

/-- 40_step_and_addressing.md R85, 30_encoding.md R65: no opcode of the default table selects ZeroPage,Y. -/
theorem test_zero_page_y_is_ill_formed :
    WellFormed defaultTable (.adcZpy 0x10#8) = false ∧ WellFormed defaultTable (.aslZpy 0x10#8) = false ∧
    WellFormed defaultTable (.bitZpy 0x10#8) = false ∧ WellFormed defaultTable (.cpxZpy 0x10#8) = false := by decide

/-- An empty table selects nothing; the default one selects a form of each shape. -/
theorem test_well_formed :
    WellFormed [] .inx = false ∧ WellFormed defaultTable .inx = true ∧ WellFormed defaultTable .aslAcc = true ∧
    WellFormed defaultTable (.cmpIndy 0x90#8) = true ∧ WellFormed defaultTable (.adcAbsy 0x0100#16) = true := by decide

/-- 90_conflicts.md C4: lengths 1, 2 and 3. -/
theorem test_lengths : Instr.inx.mode.len = 1 ∧ Instr.aslAcc.mode.len = 1 ∧ (Instr.bne 0xFB#8).mode.len = 2 ∧
    (Instr.andIndx 0x90#8).mode.len = 2 ∧ (Instr.bitAbs 0x0280#16).mode.len = 3 := by decide

/-! ### Decoding: every constructor by a word written out from 30_encoding.md R59 and R58 (bit 0 of the word is the least
significant bit of the opcode byte; the operand bytes follow, the less significant one first) -/

/-- 30_encoding.md R59, row ADC; R58. -/
theorem test_decode_adc :
    decodeTableWord 16 0x3569 = some (.adcImm 0x35#8) ∧
    decodeTableWord 16 0x3565 = some (.adcZp 0x35#8) ∧
    decodeTableWord 16 0x3575 = some (.adcZpx 0x35#8) ∧
    decodeTableWord 24 0x02806D = some (.adcAbs 0x0280#16) ∧
    decodeTableWord 24 0x02807D = some (.adcAbsx 0x0280#16) ∧
    decodeTableWord 24 0x028079 = some (.adcAbsy 0x0280#16) ∧
    decodeTableWord 16 0x3561 = some (.adcIndx 0x35#8) ∧
    decodeTableWord 16 0x3571 = some (.adcIndy 0x35#8) := by decide

/-- 30_encoding.md R59, row AND; R58. -/
theorem test_decode_and :
    decodeTableWord 16 0x3529 = some (.andImm 0x35#8) ∧
    decodeTableWord 16 0x3525 = some (.andZp 0x35#8) ∧
    decodeTableWord 16 0x3535 = some (.andZpx 0x35#8) ∧
    decodeTableWord 24 0x02802D = some (.andAbs 0x0280#16) ∧
    decodeTableWord 24 0x02803D = some (.andAbsx 0x0280#16) ∧
    decodeTableWord 24 0x028039 = some (.andAbsy 0x0280#16) ∧
    decodeTableWord 16 0x3521 = some (.andIndx 0x35#8) ∧
    decodeTableWord 16 0x3531 = some (.andIndy 0x35#8) := by decide

/-- 30_encoding.md R59, row CMP; R58. -/
theorem test_decode_cmp :
    decodeTableWord 16 0x35C9 = some (.cmpImm 0x35#8) ∧
    decodeTableWord 16 0x35C5 = some (.cmpZp 0x35#8) ∧
    decodeTableWord 16 0x35D5 = some (.cmpZpx 0x35#8) ∧
    decodeTableWord 24 0x0280CD = some (.cmpAbs 0x0280#16) ∧
    decodeTableWord 24 0x0280DD = some (.cmpAbsx 0x0280#16) ∧
    decodeTableWord 24 0x0280D9 = some (.cmpAbsy 0x0280#16) ∧
    decodeTableWord 16 0x35C1 = some (.cmpIndx 0x35#8) ∧
    decodeTableWord 16 0x35D1 = some (.cmpIndy 0x35#8) := by decide

/-- 30_encoding.md R59, rows BIT, CPX, CPY; R58. -/
theorem test_decode_bit_cpx_cpy :
    decodeTableWord 16 0x3524 = some (.bitZp 0x35#8) ∧
    decodeTableWord 24 0x02802C = some (.bitAbs 0x0280#16) ∧
    decodeTableWord 16 0x35E0 = some (.cpxImm 0x35#8) ∧
    decodeTableWord 16 0x35E4 = some (.cpxZp 0x35#8) ∧
    decodeTableWord 24 0x0280EC = some (.cpxAbs 0x0280#16) ∧
    decodeTableWord 16 0x35C0 = some (.cpyImm 0x35#8) ∧
    decodeTableWord 16 0x35C4 = some (.cpyZp 0x35#8) ∧
    decodeTableWord 24 0x0280CC = some (.cpyAbs 0x0280#16) := by decide

/-- 30_encoding.md R59, row ASL; R58. -/
theorem test_decode_asl :
    decodeTableWord 8 0x0A = some .aslAcc ∧
    decodeTableWord 16 0x3506 = some (.aslZp 0x35#8) ∧
    decodeTableWord 16 0x3516 = some (.aslZpx 0x35#8) ∧
    decodeTableWord 24 0x02800E = some (.aslAbs 0x0280#16) ∧
    decodeTableWord 24 0x02801E = some (.aslAbsx 0x0280#16) := by decide

/-- 30_encoding.md R59, the branch rows; R58. -/
theorem test_decode_branches :
    decodeTableWord 16 0x3590 = some (.bcc 0x35#8) ∧
    decodeTableWord 16 0x35B0 = some (.bcs 0x35#8) ∧
    decodeTableWord 16 0x35F0 = some (.beq 0x35#8) ∧
    decodeTableWord 16 0x35D0 = some (.bne 0x35#8) ∧
    decodeTableWord 16 0x3530 = some (.bmi 0x35#8) ∧
    decodeTableWord 16 0x3510 = some (.bpl 0x35#8) ∧
    decodeTableWord 16 0x3550 = some (.bvc 0x35#8) ∧
    decodeTableWord 16 0x3570 = some (.bvs 0x35#8) := by decide

/-- 30_encoding.md R59, the Implied rows. -/
theorem test_decode_implied :
    decodeTableWord 8 0x18 = some .clc ∧
    decodeTableWord 8 0xD8 = some .cld ∧
    decodeTableWord 8 0x58 = some .cli ∧
    decodeTableWord 8 0xB8 = some .clv ∧
    decodeTableWord 8 0xE8 = some .inx ∧
    decodeTableWord 8 0xC8 = some .iny ∧
    decodeTableWord 8 0xCA = some .dex ∧
    decodeTableWord 8 0x88 = some .dey := by decide

/-- A table that selects the ZeroPage,Y forms (93_implementation_defined.md U18), at bytes the default table leaves
invalid. -/
def tableY : OpcodeTable :=
  [ ⟨0x02#8, .adc, .zeroPageY⟩
  , ⟨0x12#8, .and, .zeroPageY⟩
  , ⟨0x22#8, .bit, .zeroPageY⟩
  , ⟨0x32#8, .cmp, .zeroPageY⟩
  , ⟨0x42#8, .cpx, .zeroPageY⟩
  , ⟨0x52#8, .cpy, .zeroPageY⟩
  , ⟨0x62#8, .asl, .zeroPageY⟩ ]

/-- U18: a table that selects ZeroPage,Y decodes to it, every operation of it. -/
theorem test_decode_zero_page_y :
    decode tableY [0x02#8, 0x35#8] = .ok (.adcZpy 0x35#8, []) ∧ decode tableY [0x12#8, 0x35#8] = .ok (.andZpy 0x35#8, []) ∧
    decode tableY [0x22#8, 0x35#8] = .ok (.bitZpy 0x35#8, []) ∧ decode tableY [0x32#8, 0x35#8] = .ok (.cmpZpy 0x35#8, []) ∧
    decode tableY [0x42#8, 0x35#8] = .ok (.cpxZpy 0x35#8, []) ∧ decode tableY [0x52#8, 0x35#8] = .ok (.cpyZpy 0x35#8, []) ∧
    decode tableY [0x62#8, 0x35#8] = .ok (.aslZpy 0x35#8, []) ∧ decode tableY [0x69#8, 0x35#8] = .error (.invalidOpcode 0x69#8) := by
  decide

/-- Vector E8: bytes of a full 6502 that this core lacks are invalid (30_encoding.md R60); a list too short is refused by
name. -/
theorem test_decode_refusals :
    decodeTableWord 8 0x00 = none ∧ decodeTableWord 8 0xEA = none ∧ decodeTableWord 16 0x35A9 = none ∧
    decodeTableWord 24 0x02808D = none ∧ decodeTableWord 24 0x02804C = none ∧ decodeTableWord 8 0x38 = none ∧
    decode defaultTable [0x60#8] = .error (.invalidOpcode 0x60#8) ∧ decode defaultTable [0x69#8] = .error .truncated ∧
    decode defaultTable [0x2C#8, 0x80#8] = .error .truncated ∧ decode defaultTable [] = .error .truncated := by decide

/-- The encoder on R62's example bytes. -/
theorem test_encode :
    encode defaultTable (.adcAbsy 0x0100#16) = [0x79#8, 0x00#8, 0x01#8] ∧ encode defaultTable (.aslZpx 0x80#8) = [0x16#8, 0x80#8] ∧
    encode defaultTable .aslAcc = [0x0A#8] ∧ encode defaultTable (.adcZpy 0x80#8) = [] := by decide

/-! ### Addition, logic and compares (95_test_vectors.md sections 2.1 to 2.5) -/

/-- Vectors A2, A4, A5, A6, A8. -/
theorem test_adc_binary :
    after (exec (.adcImm 0x01#8) { State.reset with a := 0x01#8, p := { State.reset.p with c := true } }) acc = some ⟨0x03#8, false, false, false, false⟩ ∧
    after (exec (.adcImm 0x50#8) { State.reset with a := 0x50#8 }) acc = some ⟨0xA0#8, false, false, true, true⟩ ∧
    after (exec (.adcImm 0x90#8) { State.reset with a := 0xD0#8 }) acc = some ⟨0x60#8, true, false, true, false⟩ ∧
    after (exec (.adcImm 0x00#8) { State.reset with a := 0x7F#8, p := { State.reset.p with c := true } }) acc = some ⟨0x80#8, false, false, true, true⟩ ∧
    after (exec (.adcImm 0x80#8) { State.reset with a := 0x80#8 }) acc = some ⟨0x00#8, true, true, true, false⟩ := by decide

/-- Vectors S2, B3, B7, B9, B11 (the last two: the default of DEC_INVALID). -/
theorem test_adc_decimal :
    after (exec (.adcImm 0x35#8) { State.reset with a := 0x17#8, p := { State.reset.p with d := true } }) acc = some ⟨0x52#8, false, false, false, false⟩ ∧
    after (exec (.adcImm 0x46#8) { State.reset with a := 0x58#8, p := { State.reset.p with c := true, d := true } }) acc = some ⟨0x05#8, true, false, false, false⟩ ∧
    after (exec (.adcImm 0x00#8) { State.reset with a := 0x79#8, p := { State.reset.p with c := true, d := true } }) acc = some ⟨0x80#8, false, false, true, true⟩ ∧
    after (exec (.adcImm 0x0F#8) { State.reset with a := 0x0F#8, p := { State.reset.p with c := true, d := true } }) acc = some ⟨0x15#8, false, false, false, false⟩ ∧
    after (exec (.adcImm 0xFF#8) { State.reset with a := 0xFF#8, p := { State.reset.p with c := true, d := true } }) acc = some ⟨0x55#8, true, false, true, false⟩ := by decide

/-- U1: on valid BCD the parameter DEC_INVALID changes nothing, and no free value is drawn; on invalid BCD one is. -/
theorem test_adc_free :
    after (exec (.adcImm 0x35#8) { State.reset with
      a := 0x17#8
      p := { State.reset.p with d := true }
      cfg := { Config.cfg0 with decInvalid := .anyValue } }) (fun t => (t.a, t.draws)) = some (0x52#8, 0) ∧
    after (exec (.adcImm 0x35#8) { State.reset with
      a := 0x1A#8
      p := { State.reset.p with d := true }
      cfg := { Config.cfg0 with decInvalid := .anyValue } }) (fun t => (t.pc, t.draws)) = some (0xF002#16, 1) := by
  decide

/-- Vectors AN1, AN2, AN3; C and V stay. -/
theorem test_and_immediate :
    after (exec (.andImm 0x0F#8) { State.reset with a := 0x5A#8 }) acc = some ⟨0x0A#8, false, false, false, false⟩ ∧
    after (exec (.andImm 0x00#8) { State.reset with a := 0xA5#8 }) acc = some ⟨0x00#8, false, true, false, false⟩ ∧
    after (exec (.andImm 0x8F#8) { State.reset with a := 0xF0#8, p := { State.reset.p with c := true, v := true } }) acc
      = some ⟨0x80#8, true, false, true, true⟩ := by decide

/-- Vectors T1, T2. -/
theorem test_bit_zero_page :
    after (exec (.bitZp 0x80#8) { stage 0xF000#16 [] [(0x0080#16, 0xF0#8)] with a := 0x0F#8 }) acc
      = some ⟨0x0F#8, false, true, true, true⟩ ∧
    after (exec (.bitZp 0x80#8) { stage 0xF000#16 [] [(0x0080#16, 0x40#8)] with a := 0xFF#8 }) acc
      = some ⟨0xFF#8, false, false, true, false⟩ := by decide

/-- Vector T2 in the Absolute form (2C 80 02, 30_encoding.md R62). -/
theorem test_bit_absolute :
    after (step { stage 0xF000#16 [0x2C#8, 0x80#8, 0x02#8] [(0x0280#16, 0x40#8)] with a := 0xFF#8 }) (fun t => (acc t, t.pc))
      = some (⟨0xFF#8, false, false, true, false⟩, 0xF003#16) := by decide

/-- Vectors K2, K5; V stays. -/
theorem test_cmp_immediate :
    after (exec (.cmpImm 0x21#8) { State.reset with a := 0x20#8 }) czvn = some ⟨false, false, false, true⟩ ∧
    after (exec (.cmpImm 0x01#8) { State.reset with a := 0x80#8, p := { State.reset.p with v := true } }) czvn
      = some ⟨true, false, true, false⟩ := by decide

/-- Vectors K3, K4. -/
theorem test_cpx_immediate :
    after (exec (.cpxImm 0xFF#8) { State.reset with x := 0x00#8 }) czvn = some ⟨false, false, false, false⟩ ∧
    after (exec (.cpxImm 0x00#8) { State.reset with x := 0xFF#8 }) czvn = some ⟨true, false, false, true⟩ := by decide

/-- Vectors K1, K7. -/
theorem test_cpy_immediate :
    after (exec (.cpyImm 0x80#8) { State.reset with y := 0x80#8 }) czvn = some ⟨true, true, false, false⟩ ∧
    after (exec (.cpyImm 0x80#8) { State.reset with y := 0x7F#8 }) czvn = some ⟨false, false, false, true⟩ := by decide

/-- Vectors K2, K4 on a zero-page operand (R83): CMP, CPX, CPY. -/
theorem test_compares_zero_page :
    after (exec (.cmpZp 0x80#8) { stage 0xF000#16 [] [(0x0080#16, 0x21#8)] with a := 0x20#8 }) czvn = some ⟨false, false, false, true⟩ ∧
    after (exec (.cpxZp 0x80#8) { stage 0xF000#16 [] [(0x0080#16, 0x00#8)] with x := 0xFF#8 }) czvn = some ⟨true, false, false, true⟩ ∧
    after (exec (.cpyZp 0x80#8) { stage 0xF000#16 [] [(0x0080#16, 0x00#8)] with y := 0xFF#8 }) czvn = some ⟨true, false, false, true⟩ := by decide

/-! ### Addressing modes and fetch (95_test_vectors.md section 2.10) -/

/-- Vector M1. -/
theorem test_and_zero_page :
    after (step { stage 0xF000#16 [0x25#8, 0x80#8] [(0x0080#16, 0x0F#8)] with a := 0xFF#8 }) (fun t => (t.a, t.p.n, t.pc))
      = some (0x0F#8, false, 0xF002#16) := by decide

/-- Vector M3: the index wraps within page zero. -/
theorem test_and_zero_page_x :
    after (step { stage 0xF000#16 [0x35#8, 0xF0#8] [(0x0010#16, 0x3C#8), (0x0110#16, 0xFF#8)] with x := 0x20#8, a := 0xF0#8 }) (fun t => (t.a, t.p.n, t.pc))
      = some (0x30#8, false, 0xF002#16) := by decide

/-- Vector M4: the index crosses the page. -/
theorem test_and_absolute_x :
    after (step { stage 0xF000#16 [0x3D#8, 0xF0#8, 0x00#8] [(0x0110#16, 0x81#8)] with x := 0x20#8, a := 0xF0#8 }) (fun t => (t.a, t.p.n, t.pc))
      = some (0x80#8, true, 0xF003#16) := by decide

/-- Vector M5: the index wraps at the top. -/
theorem test_and_absolute_x_top :
    after (step { stage 0xF000#16 [0x3D#8, 0xF0#8, 0xFF#8] [(0x0010#16, 0x3C#8)] with x := 0x20#8, a := 0xF0#8 }) (fun t => (t.a, t.p.n, t.pc))
      = some (0x30#8, false, 0xF003#16) := by decide

/-- Vector M6. -/
theorem test_adc_absolute_y :
    after (step { stage 0xF000#16 [0x79#8, 0x00#8, 0x01#8] [(0x01FF#16, 0x01#8)] with y := 0xFF#8, a := 0xFF#8 }) acc
      = some ⟨0x00#8, true, true, false, false⟩ := by decide

/-- Vector M7. -/
theorem test_cmp_absolute_x :
    after (step { stage 0xF000#16 [0xDD#8, 0x00#8, 0x01#8] [(0x017F#16, 0x10#8)] with x := 0x7F#8, a := 0x10#8 }) czvn
      = some ⟨true, true, false, false⟩ := by decide

/-- Vector M8. -/
theorem test_and_indirect_x :
    after (step { stage 0xF000#16 [0x21#8, 0x90#8] [(0x0094#16, 0x34#8), (0x0095#16, 0x02#8), (0x0234#16, 0xF0#8)] with x := 0x04#8, a := 0x3C#8 }) (fun t => (t.a, t.p.n, t.pc))
      = some (0x30#8, false, 0xF002#16) := by decide

/-- Vector M10: the pointer's high byte from 0x0100 (decision D8). -/
theorem test_and_indirect_x_ff :
    after (step { stage 0xF000#16 [0x21#8, 0xFE#8] [(0x00FF#16, 0x34#8), (0x0100#16, 0x02#8), (0x0000#16, 0x99#8), (0x0234#16, 0x0F#8)] with x := 0x01#8, a := 0xFF#8 }) (fun t => (t.a, t.p.n, t.pc))
      = some (0x0F#8, false, 0xF002#16) := by decide

/-- Vector M9: the pointer address wraps within page zero. -/
theorem test_adc_indirect_x :
    after (step { stage 0xF000#16 [0x61#8, 0xF0#8] [(0x0010#16, 0x00#8), (0x0011#16, 0x02#8), (0x0200#16, 0x22#8)] with x := 0x20#8, a := 0x11#8, p := { State.reset.p with c := true } }) acc
      = some ⟨0x34#8, false, false, false, false⟩ := by decide

/-- Vector M11. -/
theorem test_cmp_indirect_y :
    after (step { stage 0xF000#16 [0xD1#8, 0x90#8] [(0x0090#16, 0xF0#8), (0x0091#16, 0x00#8), (0x0110#16, 0x41#8)] with y := 0x20#8, a := 0x40#8 }) czvn
      = some ⟨false, false, false, true⟩ := by decide

/-- Vector M12: wraps at the top. -/
theorem test_cmp_indirect_y_top :
    after (step { stage 0xF000#16 [0xD1#8, 0x90#8] [(0x0090#16, 0xF0#8), (0x0091#16, 0xFF#8), (0x0010#16, 0x20#8)] with y := 0x20#8, a := 0x20#8 }) czvn
      = some ⟨true, true, false, false⟩ := by decide

/-- Vector M13: the pointer's high byte from 0x0100 (decision D8). -/
theorem test_and_indirect_y :
    after (step { stage 0xF000#16 [0x31#8, 0xFF#8] [(0x00FF#16, 0x00#8), (0x0100#16, 0x02#8), (0x0000#16, 0x77#8), (0x0201#16, 0xAA#8)] with y := 0x01#8, a := 0xFF#8 }) (fun t => (t.a, t.p.n, t.pc))
      = some (0xAA#8, true, 0xF002#16) := by decide

/-- Vector M14: the operand is the instruction's own opcode byte. -/
theorem test_cpx_absolute :
    after (step { stage 0xF000#16 [0xEC#8, 0x00#8, 0xF0#8] [] with x := 0xEC#8 }) czvn
      = some ⟨true, true, false, false⟩ := by decide

/-- Vector M15. -/
theorem test_adc_fetch_wraps :
    after (step { stage 0xFFFF#16 [0x69#8, 0x05#8] [] with a := 0x01#8 }) (fun t => (t.a, t.pc))
      = some (0x06#8, 0x0001#16) := by decide

/-- Vector M16. -/
theorem test_and_absolute_fetch_wraps :
    after (step { stage 0xFFFE#16 [0x2D#8, 0x80#8, 0x00#8] [(0x0080#16, 0x0F#8)] with a := 0xFF#8 }) (fun t => (t.a, t.pc))
      = some (0x0F#8, 0x0001#16) := by decide

/-- The text under section 2.10 on M10 and M13: with the pointer wrapping in page zero the high byte is 0x99 (EA 0x9934,
unmapped) and 0x77 (EA 0x7701). -/
theorem test_pointer_wraps_in_the_page :
    ({ stage 0xF000#16 [] [(0x00FF#16, 0x34#8), (0x0100#16, 0x02#8), (0x0000#16, 0x99#8)] with
        x := 0x01#8
        cfg := { Config.cfg0 with zpPtrWrap := true } }).effectiveAddress (.indirectX 0xFE#8) = .ok 0x9934#16 ∧
    ({ stage 0xF000#16 [] [(0x00FF#16, 0x00#8), (0x0100#16, 0x02#8), (0x0000#16, 0x77#8)] with
        y := 0x01#8
        cfg := { Config.cfg0 with zpPtrWrap := true } }).effectiveAddress (.indirectY 0xFF#8) = .ok 0x7701#16 := by
  decide

/-- 40_step_and_addressing.md R85: ZeroPage,Y as M3 with Y for X: AND, ADC, BIT, CMP, CPX, CPY. -/
theorem test_zero_page_y :
    after (exec (.andZpy 0xF0#8) { stage 0xF000#16 [] [(0x0010#16, 0x3C#8)] with y := 0x20#8, a := 0xF0#8 }) (·.a)
      = some 0x30#8 ∧
    after (exec (.adcZpy 0xF0#8) { stage 0xF000#16 [] [(0x0010#16, 0x3C#8)] with y := 0x20#8, a := 0x01#8 }) (·.a)
      = some 0x3D#8 ∧
    after (exec (.bitZpy 0xF0#8) { stage 0xF000#16 [] [(0x0010#16, 0x40#8)] with y := 0x20#8, a := 0x0F#8 }) czvn
      = some ⟨false, true, true, false⟩ ∧
    after (exec (.cmpZpy 0xF0#8) { stage 0xF000#16 [] [(0x0010#16, 0x3C#8)] with y := 0x20#8, a := 0x3C#8 }) czvn
      = some ⟨true, true, false, false⟩ ∧
    after (exec (.cpxZpy 0xF0#8) { stage 0xF000#16 [] [(0x0010#16, 0x3C#8)] with y := 0x20#8, x := 0x3C#8 }) czvn
      = some ⟨true, true, false, false⟩ ∧
    after (exec (.cpyZpy 0xF0#8) { stage 0xF000#16 [] [(0x0010#16, 0x3C#8)] with y := 0x20#8 }) czvn
      = some ⟨false, false, false, true⟩ := by decide

/-! ### ASL (95_test_vectors.md section 2.6) -/

/-- Vectors SH1, SH5: the old carry is not shifted in. -/
theorem test_asl_accumulator :
    after (exec .aslAcc { State.reset with a := 0x80#8 }) acc = some ⟨0x00#8, true, true, false, false⟩ ∧
    after (exec .aslAcc { State.reset with a := 0x01#8, p := { State.reset.p with c := true } }) acc
      = some ⟨0x02#8, false, false, false, false⟩ := by decide

/-- Vector SH6. -/
theorem test_asl_zero_page_x :
    after (step { stage 0xF000#16 [0x16#8, 0x80#8] [(0x0085#16, 0xC1#8)] with x := 0x05#8, a := 0x11#8 })
      (fun t => (t.readByte 0x0085#16, acc t)) = some (.ok 0x82#8, ⟨0x11#8, true, false, false, true⟩) := by decide

/-- Program P3 at F00E, and its bytes left alone. -/
theorem test_asl_zero_page :
    after (exec (.aslZp 0x80#8) (stage 0xF00E#16 [] [(0x0080#16, 0x21#8), (0x0081#16, 0x40#8)]))
      (fun t => (t.readByte 0x0080#16, t.readByte 0x0081#16, t.p.c, t.pc)) = some (.ok 0x42#8, .ok 0x40#8, false, 0xF010#16) := by decide

/-- R85, SH6 with Y for X. -/
theorem test_asl_zero_page_y :
    after (exec (.aslZpy 0x80#8) { stage 0xF000#16 [] [(0x0085#16, 0xC1#8)] with y := 0x05#8 })
      (fun t => (t.readByte 0x0085#16, czvn t)) = some (.ok 0x82#8, ⟨true, false, false, true⟩) := by decide

/-- Program P3 at F014. -/
theorem test_asl_absolute_x :
    after (step { stage 0xF014#16 [0x1E#8, 0xFB#8, 0x00#8] [(0x0105#16, 0x40#8)] with x := 0x0A#8 })
      (fun t => (t.readByte 0x0105#16, czvn t, t.pc)) = some (.ok 0x80#8, ⟨false, false, false, true⟩, 0xF017#16) := by decide

/-- Vector SH7: nothing changed but RunState. -/
theorem test_asl_on_the_cartridge :
    after (step (stage 0xF000#16 [0x0E#8, 0x00#8, 0xF0#8] [])) id
      = some { stage 0xF000#16 [0x0E#8, 0x00#8, 0xF0#8] [] with run := .halted (.busFault 0xF000#16 .write .readOnly) } := by decide

/-- Vector SH8: the read faults. -/
theorem test_asl_unmapped :
    after (step (stage 0xF000#16 [0x0E#8, 0x00#8, 0x03#8] [])) (fun t => (t.run, t.pc))
      = some (.halted (.busFault 0x0300#16 .read .unmapped), 0xF000#16) := by decide

/-! ### Branches, flag clears, index registers (95_test_vectors.md sections 2.7 to 2.9) -/

/-- Vectors J1, J2. -/
theorem test_bne :
    after (exec (.bne 0xFB#8) { State.reset with pc := 0xF003#16 }) (·.pc) = some 0xF000#16 ∧
    after (exec (.bne 0xFB#8) { State.reset with pc := 0xF003#16, p := { State.reset.p with z := true } }) (·.pc) = some 0xF005#16 := by decide

/-- Vector J3, and R116 not taken. -/
theorem test_bcc :
    after (exec (.bcc 0x05#8) { State.reset with pc := 0xFFFE#16 }) (·.pc) = some 0x0005#16 ∧
    after (exec (.bcc 0x05#8) { State.reset with pc := 0xFFFE#16, p := { State.reset.p with c := true } }) (·.pc) = some 0x0000#16 := by decide

/-- Vector J4, and R117 not taken. -/
theorem test_bcs :
    after (exec (.bcs 0x80#8) { State.reset with pc := 0x0000#16, p := { State.reset.p with c := true } }) (·.pc) = some 0xFF82#16 ∧
    after (exec (.bcs 0x80#8) { State.reset with pc := 0x0000#16 }) (·.pc) = some 0x0002#16 := by decide

/-- Vectors J5, J6. -/
theorem test_bmi :
    after (exec (.bmi 0x81#8) { State.reset with pc := 0x007E#16, p := { State.reset.p with n := true } }) (·.pc) = some 0x0001#16 ∧
    after (exec (.bmi 0x81#8) { State.reset with pc := 0x007E#16 }) (·.pc) = some 0x0080#16 := by decide

/-- Vector J7, and R121 not taken. -/
theorem test_bpl :
    after (exec (.bpl 0xFE#8) { State.reset with pc := 0xF000#16 }) (·.pc) = some 0xF000#16 ∧
    after (exec (.bpl 0xFE#8) { State.reset with pc := 0xF000#16, p := { State.reset.p with n := true } }) (·.pc) = some 0xF002#16 := by decide

/-- Vectors J8, J9. -/
theorem test_beq :
    after (exec (.beq 0x7F#8) { State.reset with pc := 0xF000#16, p := { State.reset.p with z := true } }) (·.pc) = some 0xF081#16 ∧
    after (exec (.beq 0x80#8) { State.reset with pc := 0xF000#16, p := { State.reset.p with z := true } }) (·.pc) = some 0xEF82#16 ∧
    after (exec (.beq 0x7F#8) { State.reset with pc := 0xF000#16 }) (·.pc) = some 0xF002#16 := by decide

/-- Vector J10 at 0x10, and R122 not taken. -/
theorem test_bvc :
    after (exec (.bvc 0x10#8) { State.reset with pc := 0xF000#16 }) (·.pc) = some 0xF012#16 ∧
    after (exec (.bvc 0x10#8) { State.reset with pc := 0xF000#16, p := { State.reset.p with v := true } }) (·.pc) = some 0xF002#16 := by decide

/-- Vectors J11, J12. -/
theorem test_bvs :
    after (exec (.bvs 0x10#8) { State.reset with pc := 0xF000#16 }) (·.pc) = some 0xF002#16 ∧
    after (exec (.bvs 0x10#8) { State.reset with pc := 0xF000#16, p := { State.reset.p with v := true } }) (·.pc) = some 0xF012#16 := by decide

/-- Vectors F1 to F4, all other flags 1 and still 1. -/
theorem test_flag_clears :
    after (exec .clc { State.reset with p := allFlags }) (fun t => (t.p, t.pc)) = some ({ allFlags with c := false }, 0xF001#16) ∧
    after (exec .cld { State.reset with p := allFlags }) (fun t => (t.p, t.pc)) = some ({ allFlags with d := false }, 0xF001#16) ∧
    after (exec .cli { State.reset with p := allFlags }) (fun t => (t.p, t.pc)) = some ({ allFlags with i := false }, 0xF001#16) ∧
    after (exec .clv { State.reset with p := allFlags }) (fun t => (t.p, t.pc)) = some ({ allFlags with v := false }, 0xF001#16) := by decide

/-- Vectors I1, I2. -/
theorem test_inx :
    after (exec .inx { State.reset with x := 0xFF#8 }) (fun t => (t.x, czvn t)) = some (0x00#8, ⟨false, true, false, false⟩) ∧
    after (exec .inx { State.reset with x := 0x7F#8 }) (fun t => (t.x, czvn t)) = some (0x80#8, ⟨false, false, false, true⟩) := by decide

/-- Vectors I3, I4. -/
theorem test_iny :
    after (exec .iny { State.reset with y := 0x0E#8 }) (fun t => (t.y, czvn t)) = some (0x0F#8, ⟨false, false, false, false⟩) ∧
    after (exec .iny { State.reset with y := 0xFF#8 }) (fun t => (t.y, czvn t)) = some (0x00#8, ⟨false, true, false, false⟩) := by decide

/-- Vectors I5, I6. -/
theorem test_dex :
    after (exec .dex { State.reset with x := 0x00#8 }) (fun t => (t.x, czvn t)) = some (0xFF#8, ⟨false, false, false, true⟩) ∧
    after (exec .dex { State.reset with x := 0x80#8 }) (fun t => (t.x, czvn t)) = some (0x7F#8, ⟨false, false, false, false⟩) := by decide

/-- Vectors I7, I8. -/
theorem test_dey :
    after (exec .dey { State.reset with y := 0x01#8 }) (fun t => (t.y, czvn t)) = some (0x00#8, ⟨false, true, false, false⟩) ∧
    after (exec .dey { State.reset with y := 0x00#8 }) (fun t => (t.y, czvn t)) = some (0xFF#8, ⟨false, false, false, true⟩) := by decide

/-! ### Errors, reset, the Bus and the host (95_test_vectors.md section 2.11) -/

/-- Vector E1. -/
theorem test_fetch_unmapped : after (step { State.reset with pc := 0x0300#16 }) id
    = some { State.reset with pc := 0x0300#16, run := .halted (.busFault 0x0300#16 .read .unmapped) } := by decide

/-- Vector E2. -/
theorem test_operand_fetch_unmapped :
    after (step (stage 0x02FF#16 [0x69#8] [])) (fun t => (t.run, t.a, t.pc))
      = some (.halted (.busFault 0x0300#16 .read .unmapped), 0x00#8, 0x02FF#16) := by decide

/-- Vector E4, its second step: the byte EA at F001. -/
theorem test_invalid_opcode :
    after (step { stage 0xF001#16 [0xEA#8] [] with x := 0x80#8 }) (fun t => (t.run, t.x, t.pc))
      = some (.halted (.invalidOpcode 0xEA#8 0xF001#16), 0x80#8, 0xF001#16) := by decide

/-- Vector E5. -/
theorem test_and_unmapped :
    after (step { stage 0xF000#16 [0x2D#8, 0x00#8, 0x03#8] [] with a := 0x5A#8 }) (fun t => (t.run, acc t, t.pc))
      = some (.halted (.busFault 0x0300#16 .read .unmapped), ⟨0x5A#8, false, false, false, false⟩, 0xF000#16) := by decide

/-- The core of vectors E6 and E7: halted on the BusFault of E5. -/
def haltedState : State := { State.reset with a := 0x5A#8, run := .halted (.busFault 0x0300#16 .read .unmapped) }

/-- Vector E6: `step` reports the latched error again. -/
theorem test_step_halted : faultOf (step haltedState) = some (.halted (.busFault 0x0300#16 .read .unmapped)) := by decide

/-- Decision D16: `step` before the first reset is refused. -/
theorem test_step_in_reset : refusalOf (step (State.new Config.cfg0 zeroDraw)) = some .stepBeforeReset := by decide

/-- Vector E7: `reset` leaves Halted; A stays. -/
theorem test_reset_after_halt :
    after haltedState.resetSequence (fun t => (t.pc, t.run, t.a)) = some (0xF000#16, .running, 0x5A#8) := by decide

/-- Vector S8: the vector's word, whatever `pc` was. -/
theorem test_reset_vector :
    after (State.resetSequence { State.reset with
      pc := 0x1234#16
      cfg := { Config.cfg0 with image := [(0xFFC, 0x34#8), (0xFFD, 0xF2#8)] } }) (·.pc) = some 0xF234#16 := by decide

/-- U9: a configuration whose ranges overlap is refused; 70_reset_and_hazards.md R182: an unmapped vector halts. -/
theorem test_reset_bad_configuration :
    refusalOf (State.resetSequence { State.reset with cfg := { Config.cfg0 with pa := ⟨0x0070, 0x0280⟩ } })
      = some .badConfiguration ∧
    after (State.resetSequence { State.reset with cfg := { Config.cfg0 with resetVector := 0x02FF#16 } })
      (fun t => (t.pc, t.run)) = some (0xF000#16, .halted (.busFault 0x0300#16 .read .unmapped)) := by decide

/-- U9 on R5: a readable vector outside the cartridge range, in block A or with its second byte in block B, is refused. -/
theorem test_reset_vector_outside_the_cartridge :
    refusalOf (State.resetSequence { State.reset with cfg := { Config.cfg0 with resetVector := 0x0080#16 } })
      = some .badConfiguration ∧
    refusalOf (State.resetSequence { State.reset with cfg := { Config.cfg0 with resetVector := 0xFFFF#16 } })
      = some .badConfiguration := by decide

/-- Vectors E9, E10. -/
theorem test_flag_access :
    State.reset.flag 0x20#8 = some true ∧ after (State.reset.setFlag 0x20#8 false) (fun t => t.flag 0x20#8) = some (some true) ∧
    after ({ State.reset with p := { State.reset.p with c := true } }.setFlag 0x08#8 true) (·.p)
      = some { State.reset.p with c := true, d := true } ∧
    refusalOf (State.reset.setFlag 0x03#8 true) = some .badFlagMask ∧ State.reset.flag 0x00#8 = none := by decide

/-- 10_state.md R17: the positions of the flags in P, the unused bit 1. -/
theorem test_status_byte :
    State.reset.p.toByte = 0x20#8 ∧ allFlags.toByte = 0xFF#8 ∧
    ({ State.reset.p with c := true, d := true, v := true } : Flags).toByte = 0x69#8 := by decide

/-- Vectors E11, E12. -/
theorem test_read_word :
    (stage 0xF000#16 [] [(0xFFFF#16, 0x12#8), (0x0000#16, 0x34#8)]).readWord 0xFFFF#16 = .ok 0x3412#16 ∧
    State.reset.readWord 0x02FF#16 = .error (.busFault 0x0300#16 .read .unmapped) := by decide

/-- Vector S7: write then read in block A; the cartridge is read-only. -/
theorem test_round_trip :
    (match State.reset.writeByte 0x0085#16 0x5A#8 with
      | .ok t => t.readByte 0x0085#16
      | .error e => .error e) = .ok 0x5A#8 ∧
    (match State.reset.writeByte 0xF000#16 0x00#8 with
      | .ok _ => none
      | .error e => some e) = some (.busFault 0xF000#16 .write .readOnly) := by decide

/-- Writing the value an unlisted byte reads as leaves nothing listed (log 21). -/
theorem test_canonical_memory :
    Memory.set (Memory.set [] 3 0x01#8) 3 Config.unlistedByte = [] ∧
    Memory.set (Memory.set [] 3 0x01#8) 1 0x02#8 = [(1, 0x02#8), (3, 0x01#8)] := by decide

/-- The first pass of program P1 (95_test_vectors.md section 3), one step of it: INX from X = 0x0E; and `run_until` to a
predicate that holds at once takes no step (60_exceptions.md R170). -/
theorem test_run_until :
    (match State.runUntil (fun r => decide (r.pc = 0xF001#16)) 1 { stage 0xF000#16 [0xE8#8] [] with x := 0x0E#8 } with
      | .holds t => some t.x
      | _ => none) = some 0x0F#8 ∧
    State.runUntil (fun _ => true) 0 haltedState = .holds haltedState := by decide

/-! ### Witnesses: states and operands that meet the hypotheses of each obligation -/


/-- CFG0 meets R5; a boundary address of each range, and the unmapped ones next to them. -/
theorem witness_AddressDecodeIsDisjoint :
    Cfg.wf Config.cfg0 = true ∧
    inRange Config.cfg0.cart 0xF000#16 = true ∧ inRange Config.cfg0.cart 0xFFFF#16 = true ∧
    inRange Config.cfg0.pa 0x0080#16 = true ∧ inRange Config.cfg0.pa 0x02FF#16 = true ∧
    inRange Config.cfg0.pb 0x0000#16 = true ∧ inRange Config.cfg0.pb 0x007F#16 = true ∧
    (inRange Config.cfg0.cart 0x0300#16 = false ∧ inRange Config.cfg0.pa 0x0300#16 = false ∧
      inRange Config.cfg0.pb 0x0300#16 = false) ∧
    (inRange Config.cfg0.cart 0xEFFF#16 = false ∧ inRange Config.cfg0.pa 0xEFFF#16 = false ∧
      inRange Config.cfg0.pb 0xEFFF#16 = false) := by decide

/-- An address of each region, at its boundaries: the clauses of ByteReadAnswersFromItsStore, ByteWriteStoresOrFaults and
WriteThenReadRoundTrip. -/
theorem witness_regions :
    regionOf State.reset.cfg 0xF000#16 = .cart 0 ∧ regionOf State.reset.cfg 0xFFFF#16 = .cart 0xFFF ∧
    regionOf State.reset.cfg 0x0080#16 = .blockA 0 ∧ regionOf State.reset.cfg 0x02FF#16 = .blockA 0x27F ∧
    regionOf State.reset.cfg 0x0000#16 = .blockB 0 ∧ regionOf State.reset.cfg 0x007F#16 = .blockB 0x7F ∧
    regionOf State.reset.cfg 0x0300#16 = .unmapped ∧ regionOf State.reset.cfg 0xEFFF#16 = .unmapped := by decide

theorem witness_WriteThenReadRoundTrip :
    (∃ o, regionOf State.reset.cfg 0x02FF#16 = .blockA o ∨ regionOf State.reset.cfg 0x02FF#16 = .blockB o) ∧
    (∃ o, regionOf State.reset.cfg 0x0000#16 = .blockA o ∨ regionOf State.reset.cfg 0x0000#16 = .blockB o) ∧
    (∃ o, regionOf State.reset.cfg 0xF000#16 = .cart o) :=
  ⟨⟨0x27F, .inl (by decide)⟩, ⟨0, .inr (by decide)⟩, ⟨0, by decide⟩⟩

/-- Another write between the write and the read. -/
theorem witness_WriteThenReadRoundTrip_later :
    State.reset.writeByte 0x0080#16 0x5A#8 = .ok { State.reset with blockA := [(0, 0x5A#8)] } ∧
    writeAll { State.reset with blockA := [(0, 0x5A#8)] } [(0x0081#16, 0x01#8), (0x0000#16, 0x02#8)]
      = .ok { State.reset with blockA := [(0, 0x5A#8), (1, 0x01#8)], blockB := [(0, 0x02#8)] } ∧
    ∀ w ∈ [((0x0081#16 : Addr), (0x01#8 : Byte)), (0x0000#16, 0x02#8)], w.1 ≠ 0x0080#16 :=
  ⟨by decide, by decide, by simp⟩

theorem witness_WriteChangesNoOtherByte :
    (∃ t, State.reset.writeByte 0x0080#16 0x5A#8 = .ok t) ∧ (∃ t, State.reset.writeByte 0x007F#16 0x5A#8 = .ok t) ∧
    (0x0081#16 : Addr) ≠ 0x0080#16 := ⟨⟨_, rfl⟩, ⟨_, rfl⟩, by decide⟩

/-- Both bytes readable across the top (E11); the first one unmapped; the second one unmapped (E12). -/
theorem witness_WordReadIsLittleEndian :
    ((0x0000#16 : Addr).toNat = ((0xFFFF#16 : Addr).toNat + 1) % 0x10000 ∧
      State.reset.readByte 0xFFFF#16 = .ok 0xFF#8 ∧ State.reset.readByte 0x0000#16 = .ok 0xFF#8) ∧
    State.reset.readByte 0xEFFF#16 = .error (.busFault 0xEFFF#16 .read .unmapped) ∧
    ((0x0300#16 : Addr).toNat = ((0x02FF#16 : Addr).toNat + 1) % 0x10000 ∧
      State.reset.readByte 0x02FF#16 = .ok 0xFF#8 ∧
      State.reset.readByte 0x0300#16 = .error (.busFault 0x0300#16 .read .unmapped)) := by decide

/-- Masks that name no flag: two bits, none, and all. -/
theorem witness_FlagReadsTheMaskedBit :
    (0x03#8 : Byte) ∉ [0x01#8, 0x02#8, 0x04#8, 0x08#8, 0x10#8, 0x20#8, 0x40#8, 0x80#8] ∧
    (0x00#8 : Byte) ∉ [0x01#8, 0x02#8, 0x04#8, 0x08#8, 0x10#8, 0x20#8, 0x40#8, 0x80#8] ∧
    (0xFF#8 : Byte) ∉ [0x01#8, 0x02#8, 0x04#8, 0x08#8, 0x10#8, 0x20#8, 0x40#8, 0x80#8] := by decide

/-- The default table is in order and selects an instruction; so does a table that selects ZeroPage,Y. -/
theorem witness_DecodeOfEncodeIsTheInstruction :
    (defaultTable.wf = true ∧ WellFormed defaultTable (.cmpIndy 0x90#8) = true) ∧
    (tableY.wf = true ∧ WellFormed tableY (.aslZpy 0x80#8) = true) := by decide

theorem witness_DecodedBytesAreTheEncoding :
    defaultTable.wf = true ∧ decode defaultTable [0xD0#8, 0xFB#8, 0xE8#8] = .ok (.bne 0xFB#8, [0xE8#8]) := by decide

/-- The pointers of vectors M9 (indexed by X, wrapping), M13 (0xFF) and M13 with ZP_PTR_WRAP. -/
theorem witness_IndirectAddressesFollowThePointer :
    ((0x10#8 : Byte).toNat = ((0xF0#8 : Byte).toNat + ({ State.reset with x := 0x20#8 } : State).x.toNat) % 0x100 ∧
      (0x0011#16 : Addr).toNat = (if State.reset.cfg.zpPtrWrap then ((0x10#8 : Byte).toNat + 1) % 0x100 else (0x10#8 : Byte).toNat + 1) ∧
      ({ State.reset with x := 0x20#8 } : State).readByte 0x0010#16 = .ok 0xFF#8 ∧
      ({ State.reset with x := 0x20#8 } : State).readByte 0x0011#16 = .ok 0xFF#8) ∧
    ((0x0100#16 : Addr).toNat = (if State.reset.cfg.zpPtrWrap then ((0xFF#8 : Byte).toNat + 1) % 0x100 else (0xFF#8 : Byte).toNat + 1) ∧
      State.reset.readByte 0x00FF#16 = .ok 0xFF#8 ∧ State.reset.readByte 0x0100#16 = .ok 0xFF#8) ∧
    (0x0000#16 : Addr).toNat = (if ({ Config.cfg0 with zpPtrWrap := true } : Cfg).zpPtrWrap
      then ((0xFF#8 : Byte).toNat + 1) % 0x100 else (0xFF#8 : Byte).toNat + 1) := by decide

/-- The core of M9: an operand through a pointer, for every family that reads one. -/
def pointerState : State :=
  { stage 0xF000#16 [] [(0x0010#16, 0x00#8), (0x0011#16, 0x02#8), (0x0200#16, 0x22#8)] with x := 0x20#8, a := 0x11#8 }

/-- `pointerState` in decimal mode. -/
def decimalState : State := { pointerState with p := { pointerState.p with d := true } }

theorem witness_AdcBinaryResult :
    (Instr.adcIndx 0xF0#8).operation = .adc ∧ OperandIs pointerState (.adcIndx 0xF0#8) 0x22#8 ∧ pointerState.p.d = false ∧
    OperandIs pointerState (.adcImm 0x05#8) 0x05#8 ∧ OperandIs pointerState (.adcZpy 0x11#8) 0x02#8 :=
  ⟨rfl, ⟨0x0200#16, by decide, by decide⟩, by decide, rfl, ⟨0x0011#16, by decide, by decide⟩⟩

theorem witness_AdcOverflowIsTheSignedOne :
    (Instr.adcAbs 0x0200#16).operation = .adc ∧ OperandIs pointerState (.adcAbs 0x0200#16) 0x22#8 ∧
    pointerState.p.d = false := ⟨rfl, ⟨0x0200#16, by decide, by decide⟩, by decide⟩

/-- Both ways to meet the third hypothesis: the default parameter on operands that are not valid BCD (B9), and valid BCD
operands with the other parameter. -/
theorem witness_AdcDecimalResult :
    (OperandIs { decimalState with a := 0x0F#8 } (.adcImm 0x0F#8) 0x0F#8 ∧ decimalState.p.d = true ∧
      decimalState.cfg.decInvalid = .totalAlgorithm ∧ validBcd 0x0F#8 = false) ∧
    (OperandIs decimalState (.adcIndx 0xF0#8) 0x22#8 ∧ validBcd decimalState.a = true ∧ validBcd 0x22#8 = true) :=
  ⟨⟨rfl, by decide, by decide, by decide⟩, ⟨0x0200#16, by decide, by decide⟩, by decide, by decide⟩

theorem witness_AdcDecimalIsDecimalAddition :
    (Instr.adcIndx 0xF0#8).operation = .adc ∧ OperandIs decimalState (.adcIndx 0xF0#8) 0x22#8 ∧ decimalState.p.d = true ∧
    validBcd decimalState.a = true ∧ validBcd 0x22#8 = true :=
  ⟨rfl, ⟨0x0200#16, by decide, by decide⟩, by decide, by decide, by decide⟩

/-- The core of U1: DEC_INVALID at `anyValue`. -/
def anyValueState : State := { decimalState with cfg := { decimalState.cfg with decInvalid := .anyValue } }

/-- An invalid operand with a valid A, and an invalid A with a valid operand. -/
theorem witness_AdcInvalidDecimalIsFree :
    (OperandIs anyValueState (.adcImm 0x0F#8) 0x0F#8 ∧ anyValueState.p.d = true ∧ anyValueState.cfg.decInvalid = .anyValue ∧
      validBcd 0x0F#8 = false ∧ validBcd anyValueState.a = true) ∧
    (OperandIs { anyValueState with a := 0xA0#8 } (.adcIndx 0xF0#8) 0x22#8 ∧ validBcd 0xA0#8 = false) :=
  ⟨⟨rfl, by decide, by decide, by decide, by decide⟩, ⟨0x0200#16, by decide, by decide⟩, by decide⟩

theorem witness_AndResult :
    (Instr.andZpx 0xF1#8).operation = .and ∧ OperandIs pointerState (.andZpx 0xF1#8) 0x02#8 :=
  ⟨rfl, ⟨0x0011#16, by decide, by decide⟩⟩

theorem witness_BitResult :
    (Instr.bitAbs 0x0200#16).operation = .bit ∧ OperandIs pointerState (.bitAbs 0x0200#16) 0x22#8 :=
  ⟨rfl, ⟨0x0200#16, by decide, by decide⟩⟩

/-- The three compares. -/
theorem witness_CompareResult :
    (compareRegister pointerState (Instr.cmpAbsy 0x0200#16).operation = some 0x11#8 ∧
      OperandIs pointerState (.cmpAbsy 0x0200#16) 0x22#8) ∧
    (compareRegister pointerState (Instr.cpxImm 0x20#8).operation = some 0x20#8 ∧
      OperandIs pointerState (.cpxImm 0x20#8) 0x20#8) ∧
    (compareRegister pointerState (Instr.cpyZp 0x11#8).operation = some 0x00#8 ∧
      OperandIs pointerState (.cpyZp 0x11#8) 0x02#8) :=
  ⟨⟨by decide, ⟨0x0200#16, by decide, by decide⟩⟩, ⟨by decide, rfl⟩, ⟨by decide, ⟨0x0011#16, by decide, by decide⟩⟩⟩

/-- ASL in block A through an index, and in block B. -/
theorem witness_AslMemoryResult :
    ((Instr.aslAbsx 0x01E0#16).operation = .asl ∧ (Instr.aslAbsx 0x01E0#16).mode = .mem (.absoluteX 0x01E0#16) ∧
      pointerState.effectiveAddress (.absoluteX 0x01E0#16) = .ok 0x0200#16 ∧ pointerState.readByte 0x0200#16 = .ok 0x22#8 ∧
      ∃ o, regionOf pointerState.cfg 0x0200#16 = .blockA o ∨ regionOf pointerState.cfg 0x0200#16 = .blockB o) ∧
    ((Instr.aslZp 0x11#8).mode = .mem (.zeroPage 0x11#8) ∧
      pointerState.effectiveAddress (.zeroPage 0x11#8) = .ok 0x0011#16 ∧ pointerState.readByte 0x0011#16 = .ok 0x02#8 ∧
      ∃ o, regionOf pointerState.cfg 0x0011#16 = .blockA o ∨ regionOf pointerState.cfg 0x0011#16 = .blockB o) :=
  ⟨⟨rfl, rfl, by decide, by decide, 0x180, .inl (by decide)⟩, ⟨rfl, by decide, by decide, 0x11, .inr (by decide)⟩⟩

/-- A branch taken and one not. -/
theorem witness_BranchResult :
    branchCondition State.reset.p (Instr.bne 0xFB#8).operation = some true ∧
    branchCondition State.reset.p (Instr.bvs 0x10#8).operation = some false := by decide

/-- CFG0 with block B gone, so that page zero below 0x0080 is unmapped. -/
def noBlockB : State := { State.reset with cfg := { Config.cfg0 with pb := ⟨0x0000, 0x0000⟩ } }

/-- CFG0 with block A ending at 0x00FF, so that the byte after page zero is unmapped. -/
def shortBlockA : State := { State.reset with cfg := { Config.cfg0 with pa := ⟨0x0080, 0x0080⟩ } }

/-- The clauses: a pointer whose low byte is unmapped (0x007F; its high byte at 0x0080 is mapped); one whose low byte is
mapped and whose high byte is not (0xFF, and, wrapping in page zero without block B, 0xFF again); an unmapped operand
(SH8); and the resolution that fails. -/
theorem witness_UnreadableOperandHalts :
    (takesOperand (Instr.andIndx 0x70#8).operation ∧ (Instr.andIndx 0x70#8).mode = .mem (.indirectX 0x70#8) ∧
      PointerAt { noBlockB with x := 0x0F#8 } (.indirectX 0x70#8) 0x007F#16 0x0080#16 ∧
      ({ noBlockB with x := 0x0F#8 } : State).readByte 0x007F#16 = .error (.busFault 0x007F#16 .read .unmapped)) ∧
    (takesOperand (Instr.cmpIndy 0xFF#8).operation ∧ PointerAt shortBlockA (.indirectY 0xFF#8) 0x00FF#16 0x0100#16 ∧
      shortBlockA.readByte 0x00FF#16 = .ok 0xFF#8 ∧
      shortBlockA.readByte 0x0100#16 = .error (.busFault 0x0100#16 .read .unmapped)) ∧
    (PointerAt { noBlockB with cfg := { noBlockB.cfg with zpPtrWrap := true } } (.indirectY 0xFF#8) 0x00FF#16 0x0000#16 ∧
      noBlockB.readByte 0x00FF#16 = .ok 0xFF#8 ∧
      noBlockB.readByte 0x0000#16 = .error (.busFault 0x0000#16 .read .unmapped)) ∧
    (takesOperand (Instr.aslAbs 0x0300#16).operation ∧ (Instr.aslAbs 0x0300#16).mode = .mem (.absolute 0x0300#16) ∧
      State.reset.effectiveAddress (.absolute 0x0300#16) = .ok 0x0300#16 ∧
      State.reset.readByte 0x0300#16 = .error (.busFault 0x0300#16 .read .unmapped)) ∧
    shortBlockA.effectiveAddress (.indirectY 0xFF#8) = .error (.busFault 0x0100#16 .read .unmapped) :=
  ⟨⟨by simp [takesOperand, Instr.operation], rfl, ⟨0x70#8, 0x7F#8, .inl ⟨rfl, by decide⟩, by decide, by decide⟩, by decide⟩,
    ⟨by simp [takesOperand, Instr.operation], ⟨0xFF#8, 0xFF#8, .inr ⟨rfl, rfl⟩, by decide, by decide⟩, by decide, by decide⟩,
    ⟨⟨0xFF#8, 0xFF#8, .inr ⟨rfl, rfl⟩, by decide, by decide⟩, by decide, by decide⟩,
    ⟨by simp [takesOperand, Instr.operation], rfl, by decide, by decide⟩, by decide⟩

theorem witness_AslOnTheCartridgeHalts :
    (Instr.aslAbs 0xF000#16).operation = .asl ∧ (Instr.aslAbs 0xF000#16).mode = .mem (.absolute 0xF000#16) ∧
    State.reset.effectiveAddress (.absolute 0xF000#16) = .ok 0xF000#16 ∧ regionOf State.reset.cfg 0xF000#16 = .cart 0 := by
  decide

/-- An instruction that completes: the hypothesis of the three frames. -/
theorem witness_RegistersWrittenOnlyAsListed :
    (∃ t, exec (.bitZp 0x80#8) State.reset = .next t) ∧ (Instr.bitZp 0x80#8).operation ≠ .adc ∧
    (Instr.bitZp 0x80#8).operation ≠ .inx ∧ (Instr.bitZp 0x80#8).operation ≠ .iny := ⟨⟨_, rfl⟩, by decide, by decide, by decide⟩

theorem witness_FlagsWrittenOnlyAsListed :
    (∃ t, exec (.bne 0xFB#8) State.reset = .next t) ∧ (∃ t, exec .clc State.reset = .next t) := ⟨⟨_, rfl⟩, ⟨_, rfl⟩⟩

/-- A form that stores nothing, one that stores, and a shift whose pointerless address is readable. -/
theorem witness_MemoryWrittenOnlyByAsl :
    (∃ t, exec (.adcZp 0x80#8) State.reset = .next t) ∧ (∃ t, exec .aslAcc State.reset = .next t) ∧
    (∃ t, exec (.aslZp 0x80#8) State.reset = .next t) ∧
    State.reset.effectiveAddress (.zeroPage 0x80#8) = .ok 0x0080#16 := ⟨⟨_, rfl⟩, ⟨_, rfl⟩, ⟨_, rfl⟩, by decide⟩

/-- The bytes of `BNE *-3` at F003 (J1). -/
theorem witness_StepRunsTheDecodedInstruction :
    (stage 0xF003#16 [0xD0#8, 0xFB#8] []).run = .running ∧
    decode (stage 0xF003#16 [0xD0#8, 0xFB#8] []).cfg.opcodeTable [0xD0#8, 0xFB#8] = .ok (.bne 0xFB#8, []) ∧
    (stage 0xF003#16 [0xD0#8, 0xFB#8] []).readByte 0xF003#16 = .ok 0xD0#8 ∧
    (stage 0xF003#16 [0xD0#8, 0xFB#8] []).readByte 0xF004#16 = .ok 0xFB#8 := by decide

theorem witness_InvalidOpcodeHalts :
    State.reset.run = .running ∧ State.reset.readByte State.reset.pc = .ok 0xFF#8 ∧
    decodeOpcode State.reset.cfg.opcodeTable 0xFF#8 = none := by decide

/-- The three clauses: `pc` in the gap; an opcode byte at the last byte of block A; a three-byte opcode one before it. -/
theorem witness_FetchFaultHalts :
    regionOf State.reset.cfg 0x0300#16 = .unmapped ∧
    ((stage 0x02FF#16 [0x69#8] []).readByte 0x02FF#16 = .ok 0x69#8 ∧
      decodeOpcode defaultTable 0x69#8 = some ⟨0x69#8, .adc, .immediate⟩ ∧ ModeClass.format .immediate ≠ .f1 ∧
      regionOf Config.cfg0 (0x02FF#16 + 1#16) = .unmapped) ∧
    ((stage 0x02FE#16 [0x2C#8, 0x80#8] []).readByte 0x02FE#16 = .ok 0x2C#8 ∧
      decodeOpcode defaultTable 0x2C#8 = some ⟨0x2C#8, .bit, .absolute⟩ ∧ ModeClass.format .absolute = .f3 ∧
      (stage 0x02FE#16 [0x2C#8, 0x80#8] []).readByte (0x02FE#16 + 1#16) = .ok 0x80#8 ∧
      regionOf Config.cfg0 (0x02FE#16 + 2#16) = .unmapped) := by decide

theorem witness_NoStepOutsideRunning :
    haltedState.run = .halted (.busFault 0x0300#16 .read .unmapped) ∧ (State.new Config.cfg0 zeroDraw).run = .reset := by decide

/-- `INX` at F000. -/
theorem witness_ProgramCounterAdvancesByTheLength :
    ∃ t, step (stage 0xF000#16 [0xE8#8] []) = .next t ∧ t.run = .running ∧
      (stage 0xF000#16 [0xE8#8] []).fetch = .ok .inx ∧
      branchCondition (stage 0xF000#16 [0xE8#8] []).p Operation.inx ≠ some true :=
  ⟨_, rfl, by decide, by decide, by decide⟩

theorem witness_ResetLoadsTheVector :
    Cfg.wf haltedState.cfg = true ∧ haltedState.readWord haltedState.cfg.resetVector = .ok 0xF000#16 := by decide

theorem witness_ResetVectorFaultHalts :
    Cfg.storesOk { Config.cfg0 with resetVector := 0x0300#16 } = true ∧
    ({ State.reset with cfg := { Config.cfg0 with resetVector := 0x0300#16 } } : State).readWord 0x0300#16
      = .error (.busFault 0x0300#16 .read .unmapped) := by decide

/-- Ranges that overlap; a readable vector outside the cartridge range; one whose second byte alone is outside it. -/
theorem witness_ResetRefusesABadConfiguration :
    Cfg.storesOk { Config.cfg0 with pa := ⟨0x0070, 0x0280⟩ } = false ∧
    (Cfg.storesOk { Config.cfg0 with resetVector := 0x0080#16 } = true ∧
      ({ State.reset with cfg := { Config.cfg0 with resetVector := 0x0080#16 } } : State).readWord 0x0080#16 = .ok 0xFFFF#16 ∧
      inRange Config.cfg0.cart 0x0080#16 = false) ∧
    (Cfg.storesOk { Config.cfg0 with resetVector := 0xFFFF#16 } = true ∧
      ({ State.reset with cfg := { Config.cfg0 with resetVector := 0xFFFF#16 } } : State).readWord 0xFFFF#16 = .ok 0xFFFF#16 ∧
      inRange Config.cfg0.cart (0xFFFF#16 + 1#16) = false) := by decide

theorem witness_ResetCannotFaultOnAGoodConfiguration : Cfg.wf haltedState.cfg = true := by decide

/-- A predicate that holds, one that does not, a step that goes on, one that halts, and a core in Halted and in Reset. -/
theorem witness_RunUntilTestsThenSteps :
    (fun r : RegisterFile => decide (r.pc = 0xF000#16)) State.reset.registers = true ∧
    (fun _ : RegisterFile => false) State.reset.registers = false ∧
    (∃ t, step (stage 0xF000#16 [0xE8#8] []) = .next t ∧ t.run = .running) ∧
    (∃ t, step State.reset = .next t ∧ t.run = .halted (.invalidOpcode 0xFF#8 0xF000#16)) ∧
    haltedState.run = .halted (.busFault 0x0300#16 .read .unmapped) ∧ (State.new Config.cfg0 zeroDraw).run = .reset :=
  ⟨by decide, rfl, ⟨_, rfl, by decide⟩, ⟨_, rfl, by decide⟩, rfl, rfl⟩

/-- The invariant holds after reset and with bytes listed in both blocks, and a step is taken from each. -/
theorem witness_EveryStepKeepsTheInvariant :
    (∃ t, State.reset.Inv ∧ step State.reset = .next t) ∧
    (∃ t, (stage 0xF000#16 [0x06#8, 0x80#8] [(0x0080#16, 0x21#8), (0x0010#16, 0x01#8)]).Inv ∧
      step (stage 0xF000#16 [0x06#8, 0x80#8] [(0x0080#16, 0x21#8), (0x0010#16, 0x01#8)]) = .next t) :=
  ⟨⟨_, ⟨by decide, by decide, by decide⟩, rfl⟩, ⟨_, ⟨by decide, by decide, by decide⟩, rfl⟩⟩

/-- Each of the host's three moves on a state that meets the invariant. -/
theorem witness_EveryHostMoveKeepsTheInvariant :
    haltedState.Inv ∧ (∃ t, hostAct .reset haltedState = .next t) ∧ (∃ t, hostAct (.setFlag 0x08#8 true) haltedState = .next t) ∧
    (∃ t, hostAct .step State.reset = .next t) :=
  ⟨⟨by decide, by decide, by decide⟩, ⟨_, rfl⟩, ⟨_, rfl⟩, ⟨_, rfl⟩⟩

/-- A step of an instruction that completes, with a cartridge address. -/
theorem witness_NoStepChangesInertState :
    (∃ t, step (stage 0xF000#16 [0xE8#8] []) = .next t) ∧ regionOf (stage 0xF000#16 [0xE8#8] []).cfg 0xF000#16 = .cart 0 :=
  ⟨⟨_, rfl⟩, by decide⟩

/-- A step that keeps Decimal set. -/
theorem witness_NoStepSetsDecimalInterruptOrBreak :
    ∃ t, step { stage 0xF000#16 [0xE8#8] [] with p := allFlags } = .next t ∧ t.p.d = true ∧ t.p.i = true ∧ t.p.b = true :=
  ⟨_, rfl, by decide, by decide, by decide⟩

/-- A step that halts on each error: an invalid opcode; the fetch, the pointer and the operand unmapped; a write to the
cartridge. -/
theorem witness_errors :
    (∃ t, step State.reset = .next t ∧ t.run = .halted (.invalidOpcode 0xFF#8 0xF000#16)) ∧
    (∃ t, step (stage 0x02FF#16 [0x69#8] []) = .next t ∧ t.run = .halted (.busFault 0x0300#16 .read .unmapped)) ∧
    (∃ t, step (State.placeBytes shortBlockA 0xF000#16 [0x31#8, 0xFF#8]) = .next t ∧
      t.run = .halted (.busFault 0x0100#16 .read .unmapped)) ∧
    (∃ t, step (stage 0xF000#16 [0x2D#8, 0x00#8, 0x03#8] []) = .next t ∧ t.run = .halted (.busFault 0x0300#16 .read .unmapped)) ∧
    (∃ t, step (stage 0xF000#16 [0x0E#8, 0x00#8, 0xF0#8] []) = .next t ∧
      t.run = .halted (.busFault 0xF000#16 .write .readOnly)) :=
  ⟨⟨_, rfl, by decide⟩, ⟨_, rfl, by decide⟩, ⟨_, rfl, by decide⟩, ⟨_, rfl, by decide⟩, ⟨_, rfl, by decide⟩⟩

theorem witness_EveryRunningStepAnswers : State.reset.run = .running := rfl

/-- Two states that differ in SP, InterruptDisable and BreakCommand, in each RunState. -/
theorem witness_InertStateIsNeverRead :
    SameButInert (stage 0xF000#16 [0xE8#8] []) { stage 0xF000#16 [0xE8#8] [] with
      sp := 0xFD#8
      p := { State.reset.p with i := true, b := true } } ∧
    (∃ t, step (stage 0xF000#16 [0xE8#8] []) = .next t) ∧
    SameButInert haltedState { haltedState with sp := 0xFD#8 } ∧ (∃ f, step haltedState = .fault f) ∧
    (∃ r, step (State.new Config.cfg0 zeroDraw) = .refused r) :=
  ⟨rfl, ⟨_, rfl⟩, rfl, ⟨_, rfl⟩, ⟨_, rfl⟩⟩

end Sys2Proof.Tests
end

