-- ==== Sys2Proof/Proofs/Scope.lean ====
section
/-! PROOFS. The scope and the configuration (00_scope.md R5): what keeps the machine's invariant, and which configurations
the reset sequence refuses. -/

namespace Sys2Proof.Machine

/-! The invariant speaks of the configuration and the two blocks alone, and a byte write is what can change a block. -/

/-- The invariant carries over to a state with the same configuration and the same blocks. -/
theorem State.Inv.congr {s t : State} (hs : s.Inv) (hc : t.cfg = s.cfg) (ha : t.blockA = s.blockA)
    (hb : t.blockB = s.blockB) : t.Inv := by
  unfold State.Inv
  rw [hc, ha, hb]
  exact hs

/-- Raising an error neither breaks nor mends the invariant (60_exceptions.md R155). -/
@[simp] theorem State.inv_raise (s : State) (e : CpuError) : (s.raise e).Inv ↔ s.Inv := Iff.rfl

/-- A byte write leaves the configuration as it was. -/
theorem State.writeByte_cfg {s t : State} {a : Addr} {v : Byte} (h : s.writeByte a v = .ok t) : t.cfg = s.cfg := by
  rcases State.writeByte_cases s a v with ⟨o, -, hw⟩ | ⟨o, -, hw⟩ | ⟨o, -, hw⟩ | ⟨-, hw⟩ <;> rw [hw] at h <;> cases h
  · rfl
  · rfl

/-- A byte write lands inside the block that answers its address, so it keeps the block's canonical form. -/
theorem State.Inv.writeByte {s t : State} {a : Addr} {v : Byte} (hs : s.Inv) (h : s.writeByte a v = .ok t) : t.Inv := by
  obtain ⟨hcfg, hA, hB⟩ := hs
  rcases State.writeByte_cases s a v with ⟨o, hg, hw⟩ | ⟨o, hg, hw⟩ | ⟨o, -, hw⟩ | ⟨-, hw⟩ <;> rw [hw] at h <;> cases h
  · exact ⟨hcfg, Memory.wf_set v hA (regionOf_blockA hg).2, hB⟩
  · exact ⟨hcfg, hA, Memory.wf_set v hB (regionOf_blockB hg).2⟩

/-- Every instruction keeps the invariant: it halts, or leaves both blocks as they were, or leaves them as one byte write
does. -/
theorem State.Inv.exec {s t : State} {i : Instr} (hs : s.Inv) (h : exec i s = .next t) : t.Inv := by
  rcases exec_cases i s with ⟨e, mode, hx, -⟩ | ⟨u, hx, -, hc, -, hblocks⟩ <;> rw [hx] at h <;> cases h
  case inl => exact (State.inv_raise s e).mpr hs
  case inr =>
    rcases hblocks with ⟨ha, hb⟩ | ⟨mode, ea, v, q, -, -, -, hw, ha, hb⟩
    · exact hs.congr hc ha hb
    · exact (hs.writeByte hw).congr (hc.trans (State.writeByte_cfg hw).symm) ha hb

/-- Settles O46: a step halts on the fetch's error or runs the fetched instruction, and each keeps the invariant. -/
theorem everyStepKeepsTheInvariant : Obligations.EveryStepKeepsTheInvariant := by
  intro s t hs h
  obtain ⟨-, ⟨e, -, rfl⟩ | ⟨i, -, hx⟩⟩ := step_cases h
  · exact (State.inv_raise s e).mpr hs
  · exact hs.exec hx

/-- Settles O45: CFG0 meets 00_scope.md R5, and an empty block is in canonical form whatever its size. -/
theorem resetStateMeetsTheInvariant : Obligations.ResetStateMeetsTheInvariant := by
  have hcfg : Cfg.wf Config.cfg0 = true := by decide
  exact ⟨hcfg, Memory.wf_nil _, Memory.wf_nil _⟩

/-! The two ways the reset sequence refuses (93_implementation_defined.md U9, log 17). -/

/-- A configuration with a byte of its vector outside the cartridge range breaks 00_scope.md R5. -/
theorem Cfg.wf_eq_false_of_vector {c : Cfg}
    (h : inRange c.cart c.resetVector = false ∨ inRange c.cart (c.resetVector + 1#16) = false) : Cfg.wf c = false := by
  rcases h with h | h <;> simp [Cfg.wf, h]

/-- Stores that break the constraints are refused before the vector is read. -/
theorem State.resetSequence_of_badStores {s : State} (h : Cfg.storesOk s.cfg = false) :
    s.resetSequence = .refused .badConfiguration := by
  simp [State.resetSequence, h]

/-- Where the vector can be read, a configuration that breaks the constraints is refused. -/
theorem State.resetSequence_of_not_wf {s : State} {v : Addr} (hr : s.readWord s.cfg.resetVector = .ok v)
    (hw : Cfg.wf s.cfg = false) : s.resetSequence = .refused .badConfiguration := by
  simp [State.resetSequence, hr, hw]

/-- Settles O41: the first clause is the test of the stores, the second the test of the whole of 00_scope.md R5, which a
vector outside the cartridge range fails. -/
theorem resetRefusesABadConfiguration : Obligations.ResetRefusesABadConfiguration := by
  intro s
  refine ⟨State.resetSequence_of_badStores, ?_⟩
  intro v _ hr hvec
  exact State.resetSequence_of_not_wf hr (Cfg.wf_eq_false_of_vector hvec)

end Sys2Proof.Machine
end

/-! PROOFS. The state (10_state.md): what `flag` and `set_flag` do, which registers and flags an instruction writes, what no
step changes, and that nothing reads SP, InterruptDisable or BreakCommand. -/

namespace Sys2Proof.Machine

open Sys2Proof.Claims

/-! The bits of P (10_state.md R17). -/

/-- The bit of P at which a flag stands. -/
def FlagName.bit : FlagName → Nat
  | .c => 0
  | .z => 1
  | .i => 2
  | .d => 3
  | .b => 4
  | .u => 5
  | .v => 6
  | .n => 7

/-- A flag's mask is its bit alone. -/
theorem FlagName.mask_eq_twoPow (f : FlagName) : f.mask = BitVec.twoPow 8 f.bit := by cases f <;> rfl

/-- P as a byte holds each flag at its bit: the flags are the binary digits of the sum that `toByte` takes. -/
theorem Flags.getLsbD_toByte (p : Flags) (f : FlagName) : p.toByte.getLsbD f.bit = p.read f := by
  have hc := p.c.toNat_le
  have hz := p.z.toNat_le
  have hi := p.i.toNat_le
  have hd := p.d.toNat_le
  have hb := p.b.toNat_le
  have hv := p.v.toNat_le
  have hn := p.n.toNat_le
  have digit : p.toByte.toNat / 2 ^ f.bit % 2 = (p.read f).toNat := by
    simp only [Flags.toByte, BitVec.toNat_ofNat]
    cases f <;> simp only [FlagName.bit, Flags.read, Bool.toNat_true] <;> omega
  rw [BitVec.getLsbD, Nat.testBit_eq_decide_div_mod_eq, digit]
  cases p.read f <;> rfl

/-- A flag is the masked bit of P. -/
theorem Flags.read_eq_masked (p : Flags) (f : FlagName) : p.read f = decide (p.toByte &&& f.mask ≠ 0#8) := by
  have hpow : BitVec.twoPow 8 f.bit ≠ 0#8 := by cases f <;> decide
  rw [FlagName.mask_eq_twoPow, BitVec.and_twoPow, Flags.getLsbD_toByte]
  cases p.read f <;> simp [hpow]

/-- A mask that is no flag's mask names no flag (10_state.md R20). -/
theorem FlagName.ofMask_eq_none {mask : Byte} (h : ∀ f : FlagName, f.mask ≠ mask) : FlagName.ofMask mask = none := by
  simp [FlagName.ofMask, h]

theorem State.flag_mask (s : State) (f : FlagName) : s.flag f.mask = some (s.p.read f) := by
  simp only [State.flag, FlagName.ofMask_mask]

theorem State.setFlag_mask (s : State) (f : FlagName) (v : Bool) :
    s.setFlag f.mask v = .next (s.setFlags (s.p.write f v)) := by
  simp only [State.setFlag, FlagName.ofMask_mask]

/-- Settles O7: `flag` reads the named flag, which is the masked bit of P; a mask outside the list is no flag's. -/
theorem flagReadsTheMaskedBit : Obligations.FlagReadsTheMaskedBit := by
  intro s
  refine ⟨⟨rfl, rfl, rfl, rfl, rfl, rfl, rfl, rfl⟩, ?_, ?_⟩
  · intro f
    rw [State.flag_mask, Flags.read_eq_masked]
  · intro mask hmask
    have hnone : FlagName.ofMask mask = none := by
      refine FlagName.ofMask_eq_none fun f hf => hmask (hf ▸ ?_)
      cases f <;> decide
    exact ⟨by simp only [State.flag, hnone], fun v => by simp only [State.setFlag, hnone]⟩

/-- Settles O8: the flags after `set_flag` are those of one flag write. -/
theorem setFlagWritesOneFlag : Obligations.SetFlagWritesOneFlag := by
  intro s f v
  refine ⟨s.p.write f v, State.setFlag_mask s f v, ?_, Flags.read_write_same s.p v, fun g => Flags.read_write_other s.p v⟩
  rintro rfl
  rfl

/-! What an instruction can leave behind, said once for the frames. -/

/-- A byte write changes the two blocks alone. -/
theorem State.writeByte_frame {s t : State} {a : Addr} {v : Byte} (h : s.writeByte a v = .ok t) :
    ∃ A B, t = { s with blockA := A, blockB := B } := by
  rcases State.writeByte_cases s a v with ⟨o, -, hw⟩ | ⟨o, -, hw⟩ | ⟨o, -, hw⟩ | ⟨-, hw⟩ <;> rw [hw] at h <;> cases h
  · exact ⟨_, _, rfl⟩
  · exact ⟨_, _, rfl⟩

/-- The next states of an instruction: halted with nothing else changed; after an operation on an operand; after ASL on A;
after ASL on memory; after a branch; after an Implied operation. -/
theorem exec_next_cases {i : Instr} {s t : State} (h : exec i s = .next t) :
    (∃ e, t = s.raise e) ∨
    (∃ op v n, readOpOf i.operation = some op ∧ t = (op s v).advance n) ∨
    (i = .aslAcc ∧ ∃ n, t = ((s.setA (shiftLeft1 s.a)).setFlags (s.p.setShift s.a)).advance n) ∨
    (∃ v A B n, i.operation = .asl ∧
      t = (State.setFlags { s with blockA := A, blockB := B } (s.p.setShift v)).advance n) ∨
    (∃ pc, t = s.setPc pc) ∨
    (∃ op n, impliedOpOf i.operation = some op ∧ t = (op s).advance n) := by
  rcases exec_shape i s with ⟨op, v, ho, -, hx⟩ | ⟨op, m, ho, -, hx⟩ | ⟨hi, hx⟩ | ⟨m, ho, -, hx⟩ | ⟨tk, d, -, -, hx⟩ |
    ⟨op, ho, -, hx⟩ <;> rw [hx] at h
  · cases h
    exact .inr (.inl ⟨op, v, _, ho, rfl⟩)
  · rcases loadOp_cases op m s with ⟨v, -, hl⟩ | ⟨e, -, hl⟩ <;> rw [hl] at h <;> cases h
    · exact .inr (.inl ⟨op, v, _, ho, rfl⟩)
    · exact .inl ⟨e, rfl⟩
  · cases h
    exact .inr (.inr (.inl ⟨hi, _, rfl⟩))
  · rcases shiftMem_cases m s with ⟨ea, v, q, -, -, hw, hl⟩ | ⟨e, hl, -⟩ <;> rw [hl] at h <;> cases h
    · obtain ⟨A, B, rfl⟩ := State.writeByte_frame hw
      exact .inr (.inr (.inr (.inl ⟨v, A, B, _, ho, rfl⟩)))
    · exact .inl ⟨e, rfl⟩
  · rw [branchOp_eq] at h
    cases h
    exact .inr (.inr (.inr (.inr (.inl ⟨_, rfl⟩))))
  · cases h
    exact .inr (.inr (.inr (.inr (.inr ⟨op, _, ho, rfl⟩))))

/-! Which registers an operation writes (10_state.md R10 to R14). -/

/-- Of the operations on an operand ADC and AND alone write A, and ADC alone draws free values. -/
theorem readOpOf_registers {o : Operation} {op : State → Byte → State} (h : readOpOf o = some op) (s : State) (m : Byte) :
    (o ≠ .adc → o ≠ .and → (op s m).a = s.a) ∧ (o ≠ .adc → (op s m).draws = s.draws) := by
  cases o <;> cases h
  case adc => exact ⟨fun hadc => absurd rfl hadc, fun hadc => absurd rfl hadc⟩
  case and => exact ⟨fun _ hand => absurd rfl hand, fun _ => rfl⟩
  all_goals exact ⟨fun _ _ => rfl, fun _ => rfl⟩

/-- Of the Implied operations INX and DEX alone write X, INY and DEY alone write Y. -/
theorem impliedOpOf_registers {o : Operation} {op : State → State} (h : impliedOpOf o = some op) (s : State) :
    (o ≠ .inx → o ≠ .dex → (op s).x = s.x) ∧ (o ≠ .iny → o ≠ .dey → (op s).y = s.y) := by
  cases o <;> cases h
  case inx => exact ⟨fun hinx => absurd rfl hinx, fun _ _ => rfl⟩
  case dex => exact ⟨fun _ hdex => absurd rfl hdex, fun _ _ => rfl⟩
  case iny => exact ⟨fun _ _ => rfl, fun hiny => absurd rfl hiny⟩
  case dey => exact ⟨fun _ _ => rfl, fun _ hdey => absurd rfl hdey⟩
  all_goals exact ⟨fun _ _ => rfl, fun _ _ => rfl⟩

/-- State `t` differs from state `s` in a register, in the configuration or in the counter of free values at most where
instruction `i` lists it. -/
def RegistersAsListed (i : Instr) (s t : State) : Prop :=
  (i.operation ≠ .adc → i.operation ≠ .and → i ≠ .aslAcc → t.a = s.a) ∧
  (i.operation ≠ .inx → i.operation ≠ .dex → t.x = s.x) ∧
  (i.operation ≠ .iny → i.operation ≠ .dey → t.y = s.y) ∧
  t.sp = s.sp ∧ t.cfg = s.cfg ∧ (i.operation ≠ .adc → t.draws = s.draws)

/-- Every instruction may leave all of them as they were. -/
theorem RegistersAsListed.of_eq {i : Instr} {s t : State} (ha : t.a = s.a) (hx : t.x = s.x) (hy : t.y = s.y)
    (hsp : t.sp = s.sp) (hcfg : t.cfg = s.cfg) (hdraws : t.draws = s.draws) : RegistersAsListed i s t :=
  ⟨fun _ _ _ => ha, fun _ _ => hx, fun _ _ => hy, hsp, hcfg, fun _ => hdraws⟩

/-- Settles O31: over the next states an instruction can answer. -/
theorem registersWrittenOnlyAsListed : Obligations.RegistersWrittenOnlyAsListed := by
  intro i s t h
  change RegistersAsListed i s t
  rcases exec_next_cases h with ⟨e, rfl⟩ | ⟨op, v, n, ho, rfl⟩ | ⟨rfl, n, rfl⟩ | ⟨v, A, B, n, -, rfl⟩ | ⟨pc, rfl⟩ |
    ⟨op, n, ho, rfl⟩
  · exact .of_eq rfl rfl rfl rfl rfl rfl
  · obtain ⟨ha, hdraws⟩ := readOpOf_registers ho s v
    obtain ⟨a, p, d, hf⟩ := readOpOf_frame ho s v
    exact ⟨fun hadc hand _ => ha hadc hand, by simp [hf], by simp [hf], by simp [hf], by simp [hf], hdraws⟩
  · exact ⟨fun _ _ hasl => absurd rfl hasl, fun _ _ => rfl, fun _ _ => rfl, rfl, rfl, fun _ => rfl⟩
  · exact .of_eq rfl rfl rfl rfl rfl rfl
  · exact .of_eq rfl rfl rfl rfl rfl rfl
  · obtain ⟨hx, hy⟩ := impliedOpOf_registers ho s
    obtain ⟨x, y, p, hf⟩ := impliedOpOf_frame ho s
    exact ⟨by simp [hf], hx, hy, by simp [hf], by simp [hf], by simp [hf]⟩

/-! Which flags an operation writes (10_state.md R19). -/

/-- Flags `q` differ from flags `p` at most in those that operation `o` lists. -/
def FlagsAsListed (o : Operation) (p q : Flags) : Prop :=
  (o ∉ [Operation.adc, .asl, .cmp, .cpx, .cpy, .clc] → q.c = p.c) ∧
  (o ∉ [Operation.adc, .and, .asl, .bit, .cmp, .cpx, .cpy, .inx, .iny, .dex, .dey] → q.z = p.z) ∧
  (o ≠ .cli → q.i = p.i) ∧
  (o ≠ .cld → q.d = p.d) ∧
  q.b = p.b ∧ q.read .u = true ∧
  (o ∉ [Operation.adc, .bit, .clv] → q.v = p.v) ∧
  (o ∉ [Operation.adc, .and, .asl, .bit, .cmp, .cpx, .cpy, .inx, .iny, .dex, .dey] → q.n = p.n)

theorem FlagsAsListed.refl (o : Operation) (p : Flags) : FlagsAsListed o p p :=
  ⟨fun _ => rfl, fun _ => rfl, fun _ => rfl, fun _ => rfl, rfl, rfl, fun _ => rfl, fun _ => rfl⟩

/-- The state after ADC, whether its values are free or computed. -/
theorem adcOp_eq (s : State) (m : Byte) :
    adcOp s m = { s with
      a := (adcValue s m).r
      p := s.p.setAdd (adcValue s m)
      draws := if adcIsFree s m then s.draws + 1 else s.draws } := by
  unfold adcOp
  split <;> rfl

/-- An operation on an operand writes the flags it lists (41_alu_read_ops.md R101 to R106). -/
theorem readOpOf_flags {o : Operation} {op : State → Byte → State} (h : readOpOf o = some op) (s : State) (m : Byte) :
    FlagsAsListed o s.p (op s m).p := by
  cases o <;> cases h
  case adc => simp [FlagsAsListed, adcOp_eq, Flags.setAdd_eq]
  case and => simp [FlagsAsListed, andOp, Flags.setZN_eq]
  case bit => simp [FlagsAsListed, bitOp, Flags.setBit_eq]
  case cmp | cpx | cpy => simp [FlagsAsListed, cmpOp, cpxOp, cpyOp, Flags.setCompare_eq]

/-- ASL writes C, Z and N (42_shift.md R110). -/
theorem setShift_flags (p : Flags) (m : Byte) : FlagsAsListed .asl p (p.setShift m) := by
  simp [FlagsAsListed, Flags.setShift_eq]

/-- An Implied operation writes the flags it lists: the one it clears, or Z and N. -/
theorem impliedOpOf_flags {o : Operation} {op : State → State} (h : impliedOpOf o = some op) (s : State) :
    FlagsAsListed o s.p (op s).p := by
  cases o <;> cases h
  case clc | cld | cli | clv => simp [FlagsAsListed, clearFlag, Flags.write]
  case inx | dex => simp [FlagsAsListed, putX, Flags.setZN_eq]
  case iny | dey => simp [FlagsAsListed, putY, Flags.setZN_eq]

/-- Settles O32: over the next states an instruction can answer. -/
theorem flagsWrittenOnlyAsListed : Obligations.FlagsWrittenOnlyAsListed := by
  intro i s t h
  change FlagsAsListed i.operation s.p t.p
  rcases exec_next_cases h with ⟨e, rfl⟩ | ⟨op, v, n, ho, rfl⟩ | ⟨rfl, n, rfl⟩ | ⟨v, A, B, n, ho, rfl⟩ | ⟨pc, rfl⟩ |
    ⟨op, n, ho, rfl⟩
  · exact .refl _ _
  · exact readOpOf_flags ho s v
  · exact setShift_flags s.p s.a
  · exact ho ▸ setShift_flags s.p v
  · exact .refl _ _
  · exact impliedOpOf_flags ho s

/-! What no step changes or sets. -/

/-- A cartridge byte reads the same under one configuration, whatever else differs (20_memory.md R31). -/
theorem State.readByte_cart {s t : State} {a : Addr} {o : Nat} (hc : t.cfg = s.cfg) (h : regionOf s.cfg a = .cart o) :
    t.readByte a = s.readByte a := by
  simp only [State.readByte, hc, h]

/-- Settles O48: an error changes RunState alone, and no instruction lists SP, BreakCommand or the configuration. -/
theorem noStepChangesInertState : Obligations.NoStepChangesInertState := by
  intro s t h
  obtain ⟨-, ⟨e, -, rfl⟩ | ⟨i, -, hx⟩⟩ := step_cases h
  · exact ⟨rfl, rfl, rfl, fun _ _ _ => rfl⟩
  · obtain ⟨-, -, -, hsp, hcfg, -⟩ := registersWrittenOnlyAsListed i s t hx
    obtain ⟨-, -, -, -, hb, -⟩ := flagsWrittenOnlyAsListed i s t hx
    exact ⟨hsp, hb, hcfg, fun a o => State.readByte_cart hcfg⟩

/-- CLD is the one instruction of its operation. -/
theorem Instr.eq_cld {i : Instr} (h : i.operation = .cld) : i = .cld := by
  cases i <;> cases h
  rfl

/-- CLI is the one instruction of its operation. -/
theorem Instr.eq_cli {i : Instr} (h : i.operation = .cli) : i = .cli := by
  cases i <;> cases h
  rfl

/-- CLD, the one instruction that writes Decimal, clears it (44_flag_clear.md R131). -/
theorem exec_decimal {i : Instr} {s t : State} (h : exec i s = .next t) (hd : t.p.d = true) : s.p.d = true := by
  obtain ⟨-, -, -, hkept, -⟩ := flagsWrittenOnlyAsListed i s t h
  by_cases ho : i.operation = .cld
  · obtain rfl := Instr.eq_cld ho
    cases h
    cases hd
  · exact hkept ho ▸ hd

/-- CLI, the one instruction that writes InterruptDisable, clears it (44_flag_clear.md R132). -/
theorem exec_interruptDisable {i : Instr} {s t : State} (h : exec i s = .next t) (hi : t.p.i = true) : s.p.i = true := by
  obtain ⟨-, -, hkept, -⟩ := flagsWrittenOnlyAsListed i s t h
  by_cases ho : i.operation = .cli
  · obtain rfl := Instr.eq_cli ho
    cases h
    cases hi
  · exact hkept ho ▸ hi

/-- Settles O49: Decimal and InterruptDisable are written by their clearing alone, BreakCommand by nothing. -/
theorem noStepSetsDecimalInterruptOrBreak : Obligations.NoStepSetsDecimalInterruptOrBreak := by
  intro s t h
  obtain ⟨-, hb, -, -⟩ := noStepChangesInertState s t h
  obtain ⟨-, ⟨e, -, rfl⟩ | ⟨i, -, hx⟩⟩ := step_cases h
  · exact ⟨id, id, id⟩
  · exact ⟨exec_decimal hx, exec_interruptDisable hx, fun htb => hb ▸ htb⟩

/-! `exec` of an instruction of each form, for any state: what `exec_shape` says of one state, where two must agree. -/

theorem exec_of_immediate {i : Instr} {op : State → Byte → State} {v : Byte} (ho : readOpOf i.operation = some op)
    (hm : i.mode = .immediate v) (s : State) : exec i s = immOp op v s := by
  cases i <;> cases hm <;> cases ho <;> rfl

theorem exec_of_load {i : Instr} {op : State → Byte → State} {m : MemMode} (ho : readOpOf i.operation = some op)
    (hm : i.mode = .mem m) (s : State) : exec i s = loadOp op m s := by
  cases i <;> cases hm <;> cases ho <;> rfl

theorem exec_of_shiftMem {i : Instr} {m : MemMode} (ho : i.operation = .asl) (hm : i.mode = .mem m) (s : State) :
    exec i s = shiftMem m s := by
  cases i <;> cases hm <;> cases ho <;> rfl

theorem exec_of_relative {i : Instr} {s : State} {taken : Bool} {d : Byte} (ht : takenOf s.p i.operation = some taken)
    (hm : i.mode = .relative d) : exec i s = branchOp taken d s := by
  cases i <;> cases hm <;> cases ht <;> rfl

theorem exec_of_implied {i : Instr} {op : State → State} (ho : impliedOpOf i.operation = some op) (s : State) :
    exec i s = impliedOp op s := by
  cases i <;> cases ho <;> rfl

/-! Noninterference (10_state.md R14, R19): forget the inert parts of a state before a function of the machine or after it,
and what is left of the answer is the same. -/

/-- A state with its inert parts at one fixed value: `SameButInert s t` says that these agree. -/
def State.forgetInert (s : State) : State := withInert s 0#8 false false

/-- An outcome with the inert parts of its next state forgotten. -/
def forgetInert : Result → Result
  | .next s => .next s.forgetInert
  | .fault f => .fault f
  | .refused r => .refused r

theorem sameButInert_iff {s t : State} : SameButInert s t ↔ s.forgetInert = t.forgetInert := Iff.rfl

@[simp] theorem forgetInert_next (s : State) : forgetInert (.next s) = .next s.forgetInert := rfl
@[simp] theorem State.forgetInert_advance (s : State) (n : Nat) :
    (s.advance n).forgetInert = s.forgetInert.advance n := rfl

@[simp] theorem State.run_forgetInert (s : State) : s.forgetInert.run = s.run := rfl
@[simp] theorem State.cfg_forgetInert (s : State) : s.forgetInert.cfg = s.cfg := rfl
@[simp] theorem State.readByte_forgetInert (s : State) (a : Addr) : s.forgetInert.readByte a = s.readByte a := rfl
@[simp] theorem State.fetch_forgetInert (s : State) : s.forgetInert.fetch = s.fetch := rfl

@[simp] theorem State.effectiveAddress_forgetInert (s : State) (m : MemMode) :
    s.forgetInert.effectiveAddress m = s.effectiveAddress m :=
  State.effectiveAddress_congr rfl rfl rfl rfl rfl m

@[simp] theorem State.loadMem_forgetInert (s : State) (m : MemMode) : s.forgetInert.loadMem m = s.loadMem m := by
  simp only [State.loadMem, State.effectiveAddress_forgetInert, State.readByte_forgetInert]

/-- A byte write stores the same byte or fails the same way. -/
theorem State.writeByte_forgetInert (s : State) (a : Addr) (v : Byte) :
    s.forgetInert.writeByte a v = (s.writeByte a v).map State.forgetInert := by
  simp only [State.writeByte, State.cfg_forgetInert]
  cases regionOf s.cfg a <;> rfl

/-- No branch tests InterruptDisable or BreakCommand. -/
theorem takenOf_forgetInert (s : State) (o : Operation) : takenOf s.forgetInert.p o = takenOf s.p o := rfl

theorem readOpOf_forgetInert {o : Operation} {op : State → Byte → State} (h : readOpOf o = some op) (s : State) (m : Byte) :
    (op s.forgetInert m).forgetInert = (op s m).forgetInert := by
  cases o <;> cases h
  case adc =>
    rw [adcOp_eq, adcOp_eq]
    rfl
  all_goals rfl

theorem impliedOpOf_forgetInert {o : Operation} {op : State → State} (h : impliedOpOf o = some op) (s : State) :
    (op s.forgetInert).forgetInert = (op s).forgetInert := by
  cases o <;> cases h <;> rfl

theorem immOp_forgetInert {o : Operation} {op : State → Byte → State} (h : readOpOf o = some op) (v : Byte) (s : State) :
    forgetInert (immOp op v s.forgetInert) = forgetInert (immOp op v s) := by
  simp only [immOp, forgetInert_next, State.forgetInert_advance, readOpOf_forgetInert h]

theorem loadOp_forgetInert {o : Operation} {op : State → Byte → State} (h : readOpOf o = some op) (m : MemMode) (s : State) :
    forgetInert (loadOp op m s.forgetInert) = forgetInert (loadOp op m s) := by
  unfold loadOp
  rw [State.loadMem_forgetInert]
  cases s.loadMem m with
  | error e => rfl
  | ok v => simp only [forgetInert_next, State.forgetInert_advance, readOpOf_forgetInert h]

theorem shiftMem_forgetInert (m : MemMode) (s : State) :
    forgetInert (shiftMem m s.forgetInert) = forgetInert (shiftMem m s) := by
  unfold shiftMem
  rw [State.effectiveAddress_forgetInert]
  cases s.effectiveAddress m with
  | error e => rfl
  | ok ea =>
    simp only [State.readByte_forgetInert]
    cases s.readByte ea with
    | error e => rfl
    | ok v =>
      simp only [State.writeByte_forgetInert]
      cases s.writeByte ea (shiftLeft1 v) with
      | error e => rfl
      | ok t => rfl

/-- No instruction reads the inert parts. -/
theorem exec_forgetInert (i : Instr) (s : State) : forgetInert (exec i s.forgetInert) = forgetInert (exec i s) := by
  rcases exec_shape i s with ⟨op, v, ho, hm, hx⟩ | ⟨op, m, ho, hm, hx⟩ | ⟨rfl, -⟩ | ⟨m, ho, hm, hx⟩ | ⟨tk, d, ht, hm, hx⟩ |
    ⟨op, ho, -, hx⟩
  · rw [hx, exec_of_immediate ho hm, immOp_forgetInert ho]
  · rw [hx, exec_of_load ho hm, loadOp_forgetInert ho]
  · rfl
  · rw [hx, exec_of_shiftMem ho hm, shiftMem_forgetInert]
  · rw [hx, exec_of_relative ((takenOf_forgetInert s _).trans ht) hm, branchOp_eq, branchOp_eq]
    rfl
  · rw [hx, exec_of_implied ho]
    simp only [impliedOp, forgetInert_next, State.forgetInert_advance, impliedOpOf_forgetInert ho]

/-- No step reads the inert parts. -/
theorem step_forgetInert (s : State) : forgetInert (step s.forgetInert) = forgetInert (step s) := by
  unfold step
  rw [State.run_forgetInert]
  cases s.run with
  | reset => rfl
  | halted e => rfl
  | running =>
    simp only [State.fetch_forgetInert]
    cases s.fetch with
    | error e => rfl
    | ok i => exact exec_forgetInert i s

/-- Steps from states that differ in the inert parts alone have outcomes that differ in them alone. -/
theorem forgetInert_step_congr {s t : State} (h : SameButInert s t) : forgetInert (step t) = forgetInert (step s) :=
  calc forgetInert (step t) = forgetInert (step t.forgetInert) := (step_forgetInert t).symm
    _ = forgetInert (step s.forgetInert) := by rw [sameButInert_iff.mp h]
    _ = forgetInert (step s) := step_forgetInert s

/-! The kind of an outcome, its fault and its refusal survive the forgetting. -/

theorem forgetInert_eq_next {r : Result} {s : State} (h : forgetInert r = .next s.forgetInert) :
    ∃ t, r = .next t ∧ SameButInert s t := by
  cases r with
  | next t => exact ⟨t, rfl, sameButInert_iff.mpr (Host.Outcome.next.inj h).symm⟩
  | fault f => cases h
  | refused q => cases h

theorem forgetInert_eq_fault {r : Result} {f : Fault} (h : forgetInert r = .fault f) : r = .fault f := by
  cases r <;> cases h
  rfl

theorem forgetInert_eq_refused {r : Result} {q : Refusal} (h : forgetInert r = .refused q) : r = .refused q := by
  cases r <;> cases h
  rfl

/-- Settles O53: what is left of the two outcomes is the same. -/
theorem inertStateIsNeverRead : Obligations.InertStateIsNeverRead := by
  intro s t h
  have hstep := forgetInert_step_congr h
  refine ⟨fun s' hs => ?_, fun f hs => ?_, fun r hs => ?_⟩ <;> rw [hs] at hstep
  · exact forgetInert_eq_next hstep
  · exact forgetInert_eq_fault hstep
  · exact forgetInert_eq_refused hstep

end Sys2Proof.Machine

/-! PROOFS. The Bus (20_memory.md): the address decode, what a byte read, a byte write and a word read answer, and which
instructions write a byte. -/

namespace Sys2Proof.Machine

open Sys2Proof.Claims

/-! The address decode (20_memory.md R32): where ranges share no address, the order in which they are tried is no matter. -/

/-- An address of one of two disjoint ranges is not in the other. -/
theorem inRange_eq_false_of_disjoint {r q : AddrRange} {a : Addr} (hd : disjointRanges r q = true)
    (h : inRange q a = true) : inRange r a = false := by
  simp only [disjointRanges, inRange, Bool.or_eq_true, Bool.and_eq_true, decide_eq_true_eq, Bool.and_eq_false_iff,
    decide_eq_false_iff_not] at *
  omega

/-- The three ranges of a configuration that meets 00_scope.md R5 are pairwise disjoint. -/
theorem Cfg.disjoint_of_wf {c : Cfg} (h : Cfg.wf c = true) :
    disjointRanges c.cart c.pa = true ∧ disjointRanges c.cart c.pb = true ∧ disjointRanges c.pa c.pb = true := by
  have hs := Cfg.storesOk_of_wf h
  simp only [Cfg.storesOk, Bool.and_eq_true] at hs
  obtain ⟨⟨⟨⟨⟨-, hcartA⟩, hcartB⟩, hAB⟩, -⟩, -⟩ := hs
  exact ⟨hcartA, hcartB, hAB⟩

/-- Settles O1: an address of one range lies in no range tried before it. -/
theorem addressDecodeIsDisjoint : Obligations.AddressDecodeIsDisjoint := by
  intro c a hwf
  obtain ⟨hcartA, hcartB, hAB⟩ := Cfg.disjoint_of_wf hwf
  refine ⟨fun h => ⟨?_, (inRange_offset h).2⟩, fun h => ⟨?_, (inRange_offset h).2⟩,
    fun h => ⟨?_, (inRange_offset h).2⟩, fun hc hA hB => ?_⟩
  · simp [regionOf, h]
  · simp [regionOf, h, inRange_eq_false_of_disjoint hcartA h]
  · simp [regionOf, h, inRange_eq_false_of_disjoint hcartB h, inRange_eq_false_of_disjoint hAB h]
  · simp [regionOf, hc, hA, hB]

/-! The byte read and the byte write, by region (20_memory.md R33, R34). -/

theorem State.readByte_of_cart {s : State} {a : Addr} {o : Nat} (h : regionOf s.cfg a = .cart o) :
    s.readByte a = .ok (Memory.get s.cfg.image o) := by
  simp only [State.readByte, h]

theorem State.readByte_of_blockA {s : State} {a : Addr} {o : Nat} (h : regionOf s.cfg a = .blockA o) :
    s.readByte a = .ok (Memory.get s.blockA o) := by
  simp only [State.readByte, h]

theorem State.readByte_of_blockB {s : State} {a : Addr} {o : Nat} (h : regionOf s.cfg a = .blockB o) :
    s.readByte a = .ok (Memory.get s.blockB o) := by
  simp only [State.readByte, h]

/-- Settles O2: region by region. -/
theorem byteReadAnswersFromItsStore : Obligations.ByteReadAnswersFromItsStore := by
  intro s a
  exact ⟨fun o => State.readByte_of_cart, fun o => State.readByte_of_blockA, fun o => State.readByte_of_blockB,
    State.readByte_unmapped⟩

theorem State.writeByte_of_cart {s : State} {a : Addr} {o : Nat} (v : Byte) (h : regionOf s.cfg a = .cart o) :
    s.writeByte a v = .error (.busFault a .write .readOnly) := by
  simp only [State.writeByte, h]

theorem State.writeByte_of_blockA {s : State} {a : Addr} {o : Nat} (v : Byte) (h : regionOf s.cfg a = .blockA o) :
    s.writeByte a v = .ok (s.setBlockA (Memory.set s.blockA o v)) := by
  simp only [State.writeByte, h]

theorem State.writeByte_of_blockB {s : State} {a : Addr} {o : Nat} (v : Byte) (h : regionOf s.cfg a = .blockB o) :
    s.writeByte a v = .ok (s.setBlockB (Memory.set s.blockB o v)) := by
  simp only [State.writeByte, h]

theorem State.writeByte_of_unmapped {s : State} {a : Addr} (v : Byte) (h : regionOf s.cfg a = .unmapped) :
    s.writeByte a v = .error (.busFault a .write .unmapped) := by
  simp only [State.writeByte, h]

/-- A store after a write, at every offset (20_memory.md R36). -/
theorem Memory.get_set (m : Memory) (o j : Nat) (v : Byte) :
    Memory.get (Memory.set m o v) j = if j = o then v else Memory.get m j := by
  split
  case isTrue h => rw [h, Memory.get_set_same]
  case isFalse h => exact Memory.get_set_other m v h

/-- Raising an error leaves every byte as it was (60_exceptions.md R155). -/
theorem sameBytes_raise (s : State) (e : CpuError) : SameBytes s (s.raise e) := State.readByte_raise s e

/-- Settles O3: region by region, and raising an error writes no byte. -/
theorem byteWriteStoresOrFaults : Obligations.ByteWriteStoresOrFaults := by
  intro s a v
  refine ⟨fun o => State.writeByte_of_cart v, fun o h => ?_, fun o h => ?_, State.writeByte_of_unmapped v,
    fun e _ => sameBytes_raise s e⟩
  · exact ⟨_, State.writeByte_of_blockA v h, fun j => Memory.get_set s.blockA o j v⟩
  · exact ⟨_, State.writeByte_of_blockB v h, fun j => Memory.get_set s.blockB o j v⟩

/-! A read after a write (20_memory.md R51). -/

/-- After a byte write that succeeds its address reads the written byte, and every other address reads as before. -/
theorem State.readByte_writeByte {s t : State} {a : Addr} {v : Byte} (h : s.writeByte a v = .ok t) (b : Addr) :
    t.readByte b = if b = a then .ok v else s.readByte b := by
  rcases State.writeByte_cases s a v with ⟨o, hg, hw⟩ | ⟨o, hg, hw⟩ | ⟨o, -, hw⟩ | ⟨-, hw⟩ <;> rw [hw] at h <;> cases h
  · exact State.readByte_setBlockA v hg b
  · exact State.readByte_setBlockB v hg b

theorem State.readByte_writeByte_same {s t : State} {a : Addr} {v : Byte} (h : s.writeByte a v = .ok t) :
    t.readByte a = .ok v := by
  rw [State.readByte_writeByte h, if_pos rfl]

theorem State.readByte_writeByte_other {s t : State} {a b : Addr} {v : Byte} (h : s.writeByte a v = .ok t) (hb : b ≠ a) :
    t.readByte b = s.readByte b := by
  rw [State.readByte_writeByte h, if_neg hb]

/-- A byte write in either block succeeds. -/
theorem State.writeByte_ok_of_block {s : State} {a : Addr} {o : Nat} (v : Byte)
    (h : regionOf s.cfg a = .blockA o ∨ regionOf s.cfg a = .blockB o) : ∃ t, s.writeByte a v = .ok t := by
  rcases h with h | h
  · exact ⟨_, State.writeByte_of_blockA v h⟩
  · exact ⟨_, State.writeByte_of_blockB v h⟩

/-- Writes in order succeed when the first one does, and the others do after it. -/
theorem writeAll_cons_ok {s u : State} {w : Addr × Byte} {ws : List (Addr × Byte)} :
    writeAll s (w :: ws) = .ok u ↔ ∃ t, s.writeByte w.1 w.2 = .ok t ∧ writeAll t ws = .ok u := by
  simp only [writeAll]
  cases s.writeByte w.1 w.2 with
  | ok t => simp
  | error e => simp

/-- Writes elsewhere leave the byte at an address as it was. -/
theorem readByte_writeAll {ws : List (Addr × Byte)} {s u : State} {a : Addr} (hne : ∀ w ∈ ws, w.1 ≠ a)
    (h : writeAll s ws = .ok u) : u.readByte a = s.readByte a := by
  induction ws generalizing s with
  | nil =>
    cases h
    rfl
  | cons w ws ih =>
    obtain ⟨hw, hws⟩ := List.forall_mem_cons.mp hne
    obtain ⟨t, hst, htu⟩ := writeAll_cons_ok.mp h
    rw [ih hws htu, State.readByte_writeByte_other hst hw.symm]

/-- Settles O4: the written byte is read at once, and writes elsewhere leave it. -/
theorem writeThenReadRoundTrip : Obligations.WriteThenReadRoundTrip := by
  intro s a v
  refine ⟨fun ⟨o, hblock⟩ => ?_, fun ⟨o, hcart⟩ => ⟨_, State.writeByte_of_cart v hcart, rfl, sameBytes_raise s _⟩⟩
  obtain ⟨t, hw⟩ := State.writeByte_ok_of_block v hblock
  have hread : t.readByte a = .ok v := State.readByte_writeByte_same hw
  exact ⟨t, hw, hread, fun ws u hne hu => (readByte_writeAll hne hu).trans hread⟩

/-- Settles O5: the frame of a byte write on the bytes and on the state. -/
theorem writeChangesNoOtherByte : Obligations.WriteChangesNoOtherByte := by
  intro s t a v h
  refine ⟨fun b hb => State.readByte_writeByte_other h hb, ?_⟩
  obtain ⟨A, B, rfl⟩ := State.writeByte_frame h
  rfl

/-! The word read (20_memory.md R35). -/

/-- Settles O6: a word read is the pair of the byte reads at `a` and `a + 1`, the address taken modulo 0x10000. -/
theorem wordReadIsLittleEndian : Obligations.WordReadIsLittleEndian := by
  intro s a b hb
  have hnext : b = a + 1#16 := BitVec.eq_of_toNat_eq (by rw [hb, BitVec.toNat_add]; rfl)
  subst hnext
  refine ⟨fun lo hi hlo hhi => ?_, fun e he => ?_, fun lo e hlo he => ?_⟩
  · exact ⟨wordOf lo hi, State.readPair_ok hlo hhi, Laws.toNat_wordOf lo hi⟩
  · exact State.readPair_error.mpr (.inl he)
  · exact State.readPair_error.mpr (.inr ⟨lo, hlo, he⟩)

/-! Which instructions write a byte (20_memory.md R49, 42_shift.md R111). -/

/-- An instruction leaves every byte as it was, or it is ASL on memory and leaves the bytes that one byte write at its
effective address leaves. -/
theorem exec_bytes {i : Instr} {s t : State} (h : exec i s = .next t) :
    SameBytes s t ∨ ∃ mode ea v q, i.operation = .asl ∧ i.mode = .mem mode ∧ s.effectiveAddress mode = .ok ea ∧
      s.writeByte ea v = .ok q ∧ SameBytes q t := by
  rcases exec_cases i s with ⟨e, mode, hx, -⟩ | ⟨u, hx, -, hc, -, hblocks⟩ <;> rw [hx] at h <;> cases h
  case inl => exact .inl (sameBytes_raise s e)
  case inr =>
    rcases hblocks with ⟨ha, hb⟩ | ⟨mode, ea, v, q, ho, hm, hea, hw, ha, hb⟩
    · exact .inl (State.readByte_congr hc ha hb)
    · exact .inr ⟨mode, ea, v, q, ho, hm, hea, hw,
        State.readByte_congr (hc.trans (State.writeByte_cfg hw).symm) ha hb⟩

/-- Settles O33: where an instruction leaves the bytes of a byte write, it is ASL on memory and its address resolves. -/
theorem memoryWrittenOnlyByAsl : Obligations.MemoryWrittenOnlyByAsl := by
  intro i s t h
  rcases exec_bytes h with hsame | ⟨mode, ea, v, q, ho, hm, hea, hw, hbytes⟩
  · exact ⟨fun _ => hsame, fun _ _ _ _ _ a _ => hsame a, fun _ _ _ _ _ => hsame⟩
  refine ⟨?_, fun mode' ea' _ hm' hea' a ha => ?_, fun mode' e _ hm' he => ?_⟩
  · rintro (hnot | rfl)
    · exact absurd ho hnot
    · cases hm
  · obtain rfl : mode = mode' := AddressingMode.mem.inj (hm.symm.trans hm')
    obtain rfl : ea = ea' := Except.ok.inj (hea.symm.trans hea')
    rw [hbytes a, State.readByte_writeByte_other hw ha]
  · obtain rfl : mode = mode' := AddressingMode.mem.inj (hm.symm.trans hm')
    cases hea.symm.trans he

end Sys2Proof.Machine

/-! PROOFS. The Decoder (30_encoding.md): decode and encode agree in both directions under every table in order, and what the
default table lists. -/

namespace Sys2Proof

/-! What the decoder answers, said once in each direction: the row of the opcode byte, as many operand bytes as the row's
format has, and the instruction they build (30_encoding.md R55 to R58). -/

theorem buildOr_eq_ok_iff {r : OpcodeRow} {b1 b2 : Byte} {bs rest : List Byte} {i : Instr} :
    buildOr r b1 b2 bs = .ok (i, rest) ↔ buildInstr r.operation r.mode b1 b2 = some i ∧ bs = rest := by
  cases hi : buildInstr r.operation r.mode b1 b2 <;> simp [buildOr, hi]

/-- The opcode byte of a row that the decoder finds, followed by the operand bytes of the row's format, decodes to what they
build. -/
theorem decode_of_row {t : OpcodeTable} {r : OpcodeRow} {operands : List Byte} {i : Instr}
    (hr : decodeOpcode t r.opcode = some r) (hlen : operands.length = r.mode.format.operandBytes)
    (hi : buildInstr r.operation r.mode (operands.getD 0 0#8) (operands.getD 1 0#8) = some i) (rest : List Byte) :
    decode t (r.opcode :: operands ++ rest) = .ok (i, rest) := by
  cases hf : r.mode.format <;> rw [hf] at hlen
  case f1 =>
    obtain rfl := List.length_eq_zero_iff.mp hlen
    simpa [decode, hr, hf, buildOr_eq_ok_iff] using hi
  case f2 =>
    obtain ⟨b1, rfl⟩ := List.length_eq_one_iff.mp hlen
    simpa [decode, hr, hf, buildOr_eq_ok_iff] using hi
  case f3 =>
    obtain ⟨b1, b2, rfl⟩ := List.length_eq_two.mp hlen
    simpa [decode, hr, hf, buildOr_eq_ok_iff] using hi

/-- Bytes that decode are the opcode byte of a row that the decoder finds and the operand bytes of the row's format, which
build what they decode to, and then the bytes left over. -/
theorem decode_eq_ok {t : OpcodeTable} {bytes rest : List Byte} {i : Instr} (h : decode t bytes = .ok (i, rest)) :
    ∃ r operands, decodeOpcode t r.opcode = some r ∧ bytes = r.opcode :: operands ++ rest ∧
      operands.length = r.mode.format.operandBytes ∧
      buildInstr r.operation r.mode (operands.getD 0 0#8) (operands.getD 1 0#8) = some i := by
  rcases bytes with - | ⟨b, bs⟩
  · cases h
  cases hr : decodeOpcode t b with
  | none => simp [decode, hr] at h
  | some r =>
    obtain ⟨-, rfl, -⟩ := decodeOpcode_some hr
    simp only [decode, hr] at h
    split at h
    case h_1 bs hf =>
      obtain ⟨hi, rfl⟩ := buildOr_eq_ok_iff.mp h
      exact ⟨r, [], hr, rfl, by rw [hf]; rfl, hi⟩
    case h_2 b1 bs hf =>
      obtain ⟨hi, rfl⟩ := buildOr_eq_ok_iff.mp h
      exact ⟨r, [b1], hr, rfl, by rw [hf]; rfl, hi⟩
    case h_3 b1 b2 bs hf =>
      obtain ⟨hi, rfl⟩ := buildOr_eq_ok_iff.mp h
      exact ⟨r, [b1, b2], hr, rfl, by rw [hf]; rfl, hi⟩
    case h_4 => cases h

/-! The encoder: the row for an instruction, and its operand bytes. -/

/-- In a table in order every row is the one chosen for its operation and mode class. -/
theorem OpcodeTable.rowFor_of_mem {t : OpcodeTable} (h : t.wf = true) {r : OpcodeRow} (hr : r ∈ t) :
    t.rowFor r.operation r.mode = some r := by
  cases hf : t.rowFor r.operation r.mode with
  | none => exact absurd (List.find?_eq_none.mp hf r hr) (by simp)
  | some q =>
    obtain ⟨hq, ho, hm⟩ := OpcodeTable.rowFor_some hf
    rw [OpcodeTable.wf_form_unique h hq hr ho hm]

theorem wellFormed_of_rowFor {t : OpcodeTable} {i : Instr} {r : OpcodeRow}
    (h : t.rowFor i.operation i.mode.modeClass = some r) : WellFormed t i = true := by
  simp [WellFormed, h]

theorem encode_of_rowFor {t : OpcodeTable} {i : Instr} {r : OpcodeRow}
    (h : t.rowFor i.operation i.mode.modeClass = some r) : encode t i = r.opcode :: i.mode.bytes := by
  simp [encode, h]

/-- An addressing mode has as many operand bytes as its class's format (30_encoding.md R57). -/
theorem AddressingMode.length_bytes (m : AddressingMode) : m.bytes.length = m.modeClass.format.operandBytes := by
  cases m
  case mem m => cases m <;> rfl
  all_goals rfl

/-- Settles O11: the row that the encoder chooses is the row that the decoder finds at its opcode byte, and an instruction's
operand bytes build it back. -/
theorem decodeOfEncodeIsTheInstruction : Obligations.DecodeOfEncodeIsTheInstruction := by
  intro t i rest hwf hi
  obtain ⟨r, hrow⟩ := Option.isSome_iff_exists.mp hi
  obtain ⟨hmem, hop, hmode⟩ := OpcodeTable.rowFor_some hrow
  have hlen := i.mode.length_bytes
  rw [encode_of_rowFor hrow]
  constructor
  · refine decode_of_row (decodeOpcode_of_mem hwf hmem) ?_ ?_ rest
    · rw [hlen, hmode]
    · rw [hop, hmode]
      exact Laws.BuildsBack.all i
  · rw [List.length_cons, hlen, AddressingMode.len, Nat.add_comm]

/-- The operand bytes that an instruction was built from are its operand bytes. -/
theorem bytes_eq_of_buildInstr {op : Operation} {mode : ModeClass} {operands : List Byte} {i : Instr}
    (hlen : operands.length = mode.format.operandBytes)
    (hi : buildInstr op mode (operands.getD 0 0#8) (operands.getD 1 0#8) = some i) : i.mode.bytes = operands := by
  rw [buildInstr_bytes hi, ← hlen]
  have hle : operands.length ≤ 2 := by
    rw [hlen]
    cases mode <;> decide
  rcases operands with - | ⟨b1, - | ⟨b2, - | ⟨b3, bs⟩⟩⟩
  · rfl
  · rfl
  · rfl
  · simp at hle

/-- Settles O12: the row that the decoder finds is the row that the encoder chooses for what the row and the operand bytes
build. -/
theorem decodedBytesAreTheEncoding : Obligations.DecodedBytesAreTheEncoding := by
  intro t bytes rest i hwf h
  obtain ⟨r, operands, hr, rfl, hlen, hi⟩ := decode_eq_ok h
  obtain ⟨hmem, -, -⟩ := decodeOpcode_some hr
  obtain ⟨hop, hmode⟩ := buildInstr_form hi
  have hrow : t.rowFor i.operation i.mode.modeClass = some r := by
    rw [hop, hmode]
    exact OpcodeTable.rowFor_of_mem hwf hmem
  refine ⟨wellFormed_of_rowFor hrow, ?_⟩
  rw [encode_of_rowFor hrow, bytes_eq_of_buildInstr hlen hi]

/-! The default table (30_encoding.md R59, R60, R65). -/

/-- Settles O9: the decoder run on the bytes of each sample. -/
theorem sampleWordsDecode : Obligations.SampleWordsDecode :=
  ⟨rfl, rfl, rfl, rfl, rfl, rfl, rfl, rfl, rfl, rfl, rfl⟩

/-- In a table in order no two rows share an opcode byte. -/
theorem OpcodeTable.nodup_opcodes {t : OpcodeTable} (h : t.wf = true) : (t.map OpcodeRow.opcode).Nodup := by
  induction t with
  | nil => exact List.nodup_nil
  | cons r rest ih =>
    simp only [OpcodeTable.wf, Bool.and_eq_true, List.all_eq_true, decide_eq_true_eq] at h
    obtain ⟨⟨-, hne⟩, hrest⟩ := h
    refine List.nodup_cons.mpr ⟨fun hmem => ?_, ih hrest⟩
    obtain ⟨q, hq, he⟩ := List.mem_map.mp hmem
    exact (hne q hq).1 he

/-- In a table in order the bytes with a valid record are the opcode bytes of the rows. -/
theorem decodeOpcode_isSome_iff {t : OpcodeTable} (h : t.wf = true) (b : Byte) :
    (decodeOpcode t b).isSome = true ↔ b ∈ t.map OpcodeRow.opcode := by
  constructor
  · intro hb
    obtain ⟨r, hr⟩ := Option.isSome_iff_exists.mp hb
    obtain ⟨hmem, he, -⟩ := decodeOpcode_some hr
    exact List.mem_map.mpr ⟨r, hmem, he⟩
  · intro hb
    obtain ⟨r, hmem, rfl⟩ := List.mem_map.mp hb
    simp [decodeOpcode_of_mem h hmem]

/-- A table in order leaves invalid as many of the 256 bytes as it has no row for (30_encoding.md R60). -/
theorem length_invalidBytes {t : OpcodeTable} (h : t.wf = true) :
    ((List.range 256).filter fun b => (decodeOpcode t (BitVec.ofNat 8 b)).isNone).length = 256 - t.length := by
  have hvalid : ((List.range 256).filter fun b => (decodeOpcode t (BitVec.ofNat 8 b)).isSome).Perm
      ((t.map OpcodeRow.opcode).map BitVec.toNat) := by
    refine (List.perm_ext_iff_of_nodup (List.nodup_range.filter _)
      ((OpcodeTable.nodup_opcodes h).map fun _ _ => BitVec.eq_of_toNat_eq)).mpr fun n => ?_
    rw [List.mem_filter, List.mem_range, decodeOpcode_isSome_iff h, List.mem_map (f := BitVec.toNat)]
    constructor
    · rintro ⟨hn, hmem⟩
      exact ⟨_, hmem, Nat.mod_eq_of_lt hn⟩
    · rintro ⟨b, hmem, rfl⟩
      exact ⟨b.isLt, by rwa [BitVec.ofNat_toNat, BitVec.setWidth_eq]⟩
  have hsplit := List.length_eq_length_filter_add (l := List.range 256)
    fun b => (decodeOpcode t (BitVec.ofNat 8 b)).isSome
  simp only [hvalid.length_eq, List.length_map, List.length_range, Option.not_isSome] at hsplit
  omega

/-- The default table selects every instruction but the ZeroPage,Y forms (40_step_and_addressing.md R85). -/
theorem wellFormed_defaultTable_iff (i : Instr) :
    WellFormed defaultTable i = true ↔ i.mode.modeClass ≠ .zeroPageY := by
  cases i
  case adcZpy | andZpy | bitZpy | cmpZpy | cpxZpy | cpyZpy | aslZpy =>
    exact ⟨fun h => absurd h Bool.false_ne_true, fun hmode => absurd rfl hmode⟩
  all_goals exact ⟨fun _ => ModeClass.noConfusion, fun _ => rfl⟩

/-- Settles O10: the order and the length by evaluation, the count of invalid bytes from them. -/
theorem defaultTableIsInOrder : Obligations.DefaultTableIsInOrder := by
  have hwf : defaultTable.wf = true := by decide
  exact ⟨hwf, rfl, length_invalidBytes hwf, wellFormed_defaultTable_iff⟩

end Sys2Proof

/-! PROOFS. The step and the AddressResolver (40_step_and_addressing.md): what a step runs, how far it moves `pc`, that its
errors are precise, and the effective address of every memory mode. -/

namespace Sys2Proof.Machine

open Sys2Proof.Claims

/-! The effective address of each mode as a number (40_step_and_addressing.md R83 to R90). -/

/-- A byte added to a byte stays within page zero. -/
theorem toNat_zext16_add (v w : Byte) : (zext16 (v + w)).toNat = (v.toNat + w.toNat) % 0x100 := by
  rw [toNat_zext16, BitVec.toNat_add]

/-- A byte added to a word wraps at the top of the address space. -/
theorem toNat_add_zext16 (w : Addr) (v : Byte) : (w + zext16 v).toNat = (w.toNat + v.toNat) % 0x10000 := by
  rw [BitVec.toNat_add, toNat_zext16]

/-- Settles O13: the index is added to the operand byte before it becomes an address. -/
theorem zeroPageAddressesWrapInThePage : Obligations.ZeroPageAddressesWrapInThePage := by
  intro s v
  exact ⟨⟨_, rfl, toNat_zext16 v⟩, ⟨_, rfl, toNat_zext16_add v s.x⟩, ⟨_, rfl, toNat_zext16_add v s.y⟩⟩

/-- Settles O14: the index is added to the operand word. -/
theorem absoluteAddressesWrapAtTheTop : Obligations.AbsoluteAddressesWrapAtTheTop := by
  intro s w
  exact ⟨rfl, ⟨_, rfl, toNat_add_zext16 w s.x⟩, ⟨_, rfl, toNat_add_zext16 w s.y⟩⟩

/-- A zero-page pointer is the word of the bytes at its two addresses. -/
theorem State.readPointer_ok {s : State} {zp lo hi : Byte} (hlo : s.readByte (zext16 zp) = .ok lo)
    (hhi : s.readByte (s.pointerHigh zp) = .ok hi) : s.readPointer zp = .ok (wordOf lo hi) := by
  rw [State.readPointer_eq, State.readPair_ok hlo hhi]

theorem State.effectiveAddress_indirectX {s : State} {v : Byte} {w : Addr} (h : s.readPointer (v + s.x) = .ok w) :
    s.effectiveAddress (.indirectX v) = .ok w := h

theorem State.effectiveAddress_indirectY {s : State} {v : Byte} {w : Addr} (h : s.readPointer v = .ok w) :
    s.effectiveAddress (.indirectY v) = .ok (w + zext16 s.y) := by
  simp only [State.effectiveAddress, h]

/-- Settles O15: the two addresses are those of the pointer, for both values of ZP_PTR_WRAP, so the pointer is their word. -/
theorem indirectAddressesFollowThePointer : Obligations.IndirectAddressesFollowThePointer := by
  intro s v zp pl ph lo hi hpl hph hlo hhi
  obtain rfl : pl = zext16 zp := BitVec.eq_of_toNat_eq (hpl.trans (toNat_zext16 zp).symm)
  obtain rfl : ph = s.pointerHigh zp := BitVec.eq_of_toNat_eq (hph.trans (s.toNat_pointerHigh zp).symm)
  have hptr : s.readPointer zp = .ok (wordOf lo hi) := State.readPointer_ok hlo hhi
  constructor
  · intro hzp
    obtain rfl : zp = v + s.x := BitVec.eq_of_toNat_eq (hzp.trans (BitVec.toNat_add v s.x).symm)
    exact ⟨_, State.effectiveAddress_indirectX hptr, Laws.toNat_wordOf lo hi⟩
  · rintro rfl
    refine ⟨_, State.effectiveAddress_indirectY hptr, ?_⟩
    rw [toNat_add_zext16, Laws.toNat_wordOf]

/-! The bytes at `pc` and on, and the instruction the fetch takes from them (40_step_and_addressing.md R76). -/

/-- Where the opcode byte of a row that the decoder finds stands at `pc`, and after it the operand bytes of the row's format,
the fetch answers what they build. -/
theorem State.fetch_of_row {s : State} {r : OpcodeRow} {operands : List Byte} {i : Instr}
    (hr : decodeOpcode s.cfg.opcodeTable r.opcode = some r) (hlen : operands.length = r.mode.format.operandBytes)
    (hi : buildInstr r.operation r.mode (operands.getD 0 0#8) (operands.getD 1 0#8) = some i)
    (hop : s.readByte s.pc = .ok r.opcode)
    (hread : ∀ k (h : k < operands.length), s.readByte (s.pc + BitVec.ofNat 16 (k + 1)) = .ok operands[k]) :
    s.fetch = .ok i := by
  have hbuilt : buildFetched s r (operands.getD 0 0#8) (operands.getD 1 0#8) = .ok i := by
    simp only [buildFetched, hi]
  cases hf : r.mode.format <;> rw [hf] at hlen
  case f1 =>
    obtain rfl := List.length_eq_zero_iff.mp hlen
    simp only [State.fetch, hop, hr, hf]
    exact hbuilt
  case f2 =>
    obtain ⟨b1, rfl⟩ := List.length_eq_one_iff.mp hlen
    have h1 : s.readByte (s.pc + 1#16) = .ok b1 := hread 0 (Nat.zero_lt_succ _)
    simp only [State.fetch, hop, hr, hf, h1]
    exact hbuilt
  case f3 =>
    obtain ⟨b1, b2, rfl⟩ := List.length_eq_two.mp hlen
    have h1 : s.readByte (s.pc + 1#16) = .ok b1 := hread 0 (Nat.zero_lt_succ _)
    have h2 : s.readByte (s.pc + 2#16) = .ok b2 := hread 1 (Nat.lt_succ_self _)
    simp only [State.fetch, hop, hr, hf, h1, h2]
    exact hbuilt

/-- An address counted over the integers from `pc`, taken modulo 0x10000, is the sum of words. -/
theorem ofNat_toNat_add (a : Addr) (k : Nat) : BitVec.ofNat 16 (a.toNat + k) = a + BitVec.ofNat 16 k := by
  rw [BitVec.ofNat_add, BitVec.ofNat_toNat, BitVec.setWidth_eq]

/-- The fetch answers what the decoder does on the bytes at `pc` and on, when the instruction takes all of them. -/
theorem State.fetch_of_decode {s : State} {bytes : List Byte} {i : Instr}
    (hd : decode s.cfg.opcodeTable bytes = .ok (i, []))
    (hread : ∀ k (h : k < bytes.length), s.readByte (s.pc + BitVec.ofNat 16 k) = .ok bytes[k]) : s.fetch = .ok i := by
  obtain ⟨r, operands, hr, hbytes, hlen, hi⟩ := decode_eq_ok hd
  rw [List.append_nil] at hbytes
  subst hbytes
  have hop : s.readByte s.pc = .ok r.opcode := by simpa using hread 0 (Nat.zero_lt_succ _)
  exact State.fetch_of_row hr hlen hi hop fun k hk => hread (k + 1) (Nat.succ_lt_succ hk)

/-- Settles O34: the fetch answers the decoded instruction, and a running step runs what was fetched. -/
theorem stepRunsTheDecodedInstruction : Obligations.StepRunsTheDecodedInstruction := by
  intro s i bytes hrun hd hread
  refine step_of_fetch hrun (State.fetch_of_decode hd fun k hk => ?_)
  rw [← ofNat_toNat_add]
  exact hread k hk

/-! How far an instruction moves `pc` (40_step_and_addressing.md R77). -/

/-- The length of an instruction, by the class of its mode. -/
theorem len_eq_of_modeClass (m : AddressingMode) :
    m.len = if m.modeClass ∈ [ModeClass.implied, .accumulator] then 1
      else if m.modeClass ∈ [ModeClass.absolute, .absoluteX, .absoluteY] then 3 else 2 := by
  unfold AddressingMode.len
  cases m.modeClass <;> rfl

/-- To advance by an instruction's length is to move `pc` to the address after it, whatever else has been written. -/
theorem State.pc_advance_len {i : Instr} {mode : AddressingMode} (hm : i.mode = mode) {s u : State} (h : u.pc = s.pc) :
    (u.advance mode.len).pc = nextPc s i := by
  rw [State.advance_pc, h, nextPc, hm, ofNat_toNat_add]

/-- The machine tests for each branch the predicate of decision D15. -/
theorem takenOf_eq_branchCondition (p : Flags) (o : Operation) : takenOf p o = branchCondition p o := by
  cases o <;> rfl

/-- An instruction other than a taken branch halts the core or moves `pc` to the address after it. -/
theorem exec_pc {i : Instr} {s t : State} (h : exec i s = .next t) (hnot : branchCondition s.p i.operation ≠ some true) :
    (∃ e, t = s.raise e) ∨ t.pc = nextPc s i := by
  rcases exec_shape i s with ⟨op, v, ho, hm, hx⟩ | ⟨op, m, ho, hm, hx⟩ | ⟨rfl, hx⟩ | ⟨m, -, hm, hx⟩ | ⟨tk, d, ht, hm, hx⟩ |
    ⟨op, ho, hm, hx⟩ <;> rw [hx] at h
  · cases h
    obtain ⟨a, p, n, hf⟩ := readOpOf_frame ho s v
    exact .inr (State.pc_advance_len hm (by rw [hf]))
  · rcases loadOp_cases op m s with ⟨v, -, hl⟩ | ⟨e, -, hl⟩ <;> rw [hl] at h <;> cases h
    · obtain ⟨a, p, n, hf⟩ := readOpOf_frame ho s v
      exact .inr (State.pc_advance_len hm (by rw [hf]))
    · exact .inl ⟨e, rfl⟩
  · cases h
    exact .inr (State.pc_advance_len (i := .aslAcc) (mode := .accumulator) rfl rfl)
  · rcases shiftMem_cases m s with ⟨ea, v, q, -, -, hw, hl⟩ | ⟨e, hl, -⟩ <;> rw [hl] at h <;> cases h
    · obtain ⟨A, B, rfl⟩ := State.writeByte_frame hw
      exact .inr (State.pc_advance_len hm rfl)
    · exact .inl ⟨e, rfl⟩
  · rw [← takenOf_eq_branchCondition, ht] at hnot
    cases tk with
    | true => exact absurd rfl hnot
    | false =>
      cases h
      exact .inr (State.pc_advance_len hm rfl)
  · cases h
    obtain ⟨x, y, p, hf⟩ := impliedOpOf_frame ho s
    exact .inr (State.pc_advance_len hm (by rw [hf]))

/-- Settles O38: the step runs the fetched instruction, which has not halted the core, and the address after it is `pc` and
the length modulo 0x10000. -/
theorem programCounterAdvancesByTheLength : Obligations.ProgramCounterAdvancesByTheLength := by
  intro s t i hrun hfetch hstep htrun hnot
  rw [step_of_fetch hrun hfetch] at hstep
  have hpc : t.pc = nextPc s i := by
    rcases exec_pc hstep hnot with ⟨e, rfl⟩ | hpc
    · cases htrun
    · exact hpc
  refine ⟨?_, len_eq_of_modeClass i.mode⟩
  rw [hpc, nextPc, BitVec.toNat_ofNat]

/-! Errors are precise (40_step_and_addressing.md R78, 60_exceptions.md R155). -/

/-- An instruction halts a running core by raising an error, or leaves it running. -/
theorem exec_raise_or_running {i : Instr} {s t : State} (hrun : s.run = .running) (h : exec i s = .next t) :
    (∃ e, t = s.raise e) ∨ t.run = .running := by
  rcases exec_cases i s with ⟨e, mode, hx, -⟩ | ⟨u, hx, hkept, -⟩ <;> rw [hx] at h <;> cases h
  · exact .inl ⟨e, rfl⟩
  · exact .inr (hkept.trans hrun)

/-- A step raises an error, of the fetch or of the instruction, or leaves the core running. -/
theorem step_raise_or_running {s t : State} (h : step s = .next t) : (∃ e, t = s.raise e) ∨ t.run = .running := by
  obtain ⟨hrun, ⟨e, -, rfl⟩ | ⟨i, -, hx⟩⟩ := step_cases h
  · exact .inl ⟨e, rfl⟩
  · exact exec_raise_or_running hrun hx

/-- Settles O50: a step that halts has raised its error, and that writes RunState alone. -/
theorem errorsArePrecise : Obligations.ErrorsArePrecise := by
  intro s t e h hhalt
  rcases step_raise_or_running h with ⟨f, rfl⟩ | hrun
  · cases hhalt
    rfl
  · rw [hrun] at hhalt
    cases hhalt

end Sys2Proof.Machine

/-! PROOFS. The operations on an operand byte (41_alu_read_ops.md): what ADC, AND, BIT, CMP, CPX and CPY answer, that decimal
ADC is decimal addition, and the halt on an operand that cannot be read. -/

namespace Sys2Proof.Machine

open Sys2Proof.Claims

/-! An instruction whose operand can be read runs its operation on it and moves `pc` (41_alu_read_ops.md R100). -/

/-- `pc` moves to the address after the instruction, whatever else has been written. -/
theorem State.advance_len {i : Instr} {mode : AddressingMode} (hm : i.mode = mode) {s u : State} (h : u.pc = s.pc) :
    u.advance mode.len = u.setPc (nextPc s i) :=
  congrArg u.setPc (State.pc_advance_len hm h)

/-- An operation on an operand leaves `pc` where it was. -/
theorem readOpOf_pc {o : Operation} {op : State → Byte → State} (h : readOpOf o = some op) (s : State) (m : Byte) :
    (op s m).pc = s.pc := by
  obtain ⟨a, p, d, hf⟩ := readOpOf_frame h s m
  rw [hf]

/-- The operand byte of a memory mode is what the machine loads. -/
theorem loadMem_of_operandIs {s : State} {i : Instr} {m : Byte} {mode : MemMode} (hmode : i.mode = .mem mode)
    (h : OperandIs s i m) : s.loadMem mode = .ok m := by
  simp only [OperandIs, hmode] at h
  exact State.loadMem_ok.mpr h

theorem exec_of_operandIs {i : Instr} {op : State → Byte → State} {s : State} {m : Byte}
    (ho : readOpOf i.operation = some op) (h : OperandIs s i m) :
    exec i s = .next ((op s m).setPc (nextPc s i)) := by
  rw [← State.advance_len rfl (readOpOf_pc ho s m)]
  cases hmode : i.mode with
  | immediate v =>
    simp only [OperandIs, hmode] at h
    subst h
    rw [exec_of_immediate ho hmode, immOp]
  | mem mode => rw [exec_of_load ho hmode, loadOp, loadMem_of_operandIs hmode h]
  | implied => simp [OperandIs, hmode] at h
  | accumulator => simp [OperandIs, hmode] at h
  | relative d => simp [OperandIs, hmode] at h

/-! Bytes as numbers. -/

/-- The Zero flag's test on the number. -/
theorem decide_eq_zero (r : Byte) : decide (r = 0#8) = decide (r.toNat = 0) :=
  decide_eq_decide.mpr BitVec.toNat_inj.symm

theorem getLsbD_seven (v : Byte) : v.getLsbD 7 = decide (128 ≤ v.toNat) :=
  (BitVec.msb_eq_getLsbD_last v).symm.trans (BitVec.msb_eq_decide v)

/-! AND, BIT and the compares. -/

/-- Settles O21: the result's bits are those of the conjunction, and Z and N are set from it. -/
theorem andResult : Obligations.AndResult := by
  intro i s m ho hm
  refine ⟨s.a &&& m, fun k => BitVec.getLsbD_and, ?_⟩
  rw [exec_of_operandIs (op := andOp) (by rw [ho]; rfl) hm, andOp, Flags.setZN_eq, decide_eq_zero]
  rfl

/-- Two bytes have no bit in common exactly when their conjunction is zero. -/
theorem and_eq_zero_iff (a m : Byte) :
    a &&& m = 0#8 ↔ ∀ k, ¬(a.getLsbD k = true ∧ m.getLsbD k = true) := by
  simp only [← Bool.and_eq_true, ← BitVec.getLsbD_and, Bool.not_eq_true]
  constructor
  · intro h k
    rw [h, BitVec.getLsbD_zero]
  · intro h
    exact BitVec.eq_of_getLsbD_eq fun k _ => (h k).trans BitVec.getLsbD_zero.symm

/-- Settles O22: Z tests the conjunction, and V and N are the operand's own bits. -/
theorem bitResult : Obligations.BitResult := by
  intro i s m ho hm
  refine ⟨decide (s.a &&& m = 0#8), decide_eq_true_iff.trans (and_eq_zero_iff s.a m), ?_⟩
  rw [exec_of_operandIs (op := bitOp) (by rw [ho]; rfl) hm, bitOp, Flags.setBit_eq]
  rfl

/-- The three compares are one operation, on the register each of them reads. -/
theorem readOpOf_compare {s : State} {o : Operation} {r : Byte} (h : compareRegister s o = some r) (m : Byte) :
    ∃ op, readOpOf o = some op ∧ op s m = s.setFlags (s.p.setCompare r m) := by
  cases o <;> cases h
  case cmp => exact ⟨cmpOp, rfl, rfl⟩
  case cpx => exact ⟨cpxOp, rfl, rfl⟩
  case cpy => exact ⟨cpyOp, rfl, rfl⟩

/-- Settles O23: the flags of the compare, their tests on the numbers. -/
theorem compareResult : Obligations.CompareResult := by
  intro i s r m hr hm
  obtain ⟨op, ho, hop⟩ := readOpOf_compare hr m
  refine ⟨(r - m).getLsbD 7, ?_, ?_⟩
  · have hsub : (r - m).toNat = (r.toNat + 256 - m.toNat) % 256 := by
      have hlt := m.isLt
      rw [BitVec.toNat_sub]
      omega
    rw [getLsbD_seven, hsub, decide_eq_true_iff]
  · have hz : decide (r = m) = decide (r.toNat = m.toNat) := decide_eq_decide.mpr BitVec.toNat_inj.symm
    rw [exec_of_operandIs ho hm, hop, Flags.setCompare_eq, hz]
    rfl

/-! ADC: the state after it, and the flags that both modes take from the result (41_alu_read_ops.md R101). -/

/-- The sign test: the operands agree in bit 7 and the result differs from them there. -/
theorem signedOverflow_iff (a m r : Byte) :
    signedOverflow a m r = true ↔ a.getLsbD 7 = m.getLsbD 7 ∧ r.getLsbD 7 ≠ a.getLsbD 7 := by
  have hmask : (0x80#8 : Byte) = BitVec.twoPow 8 7 := rfl
  have hbit : signedOverflow a m r = ((a ^^^ r) &&& (m ^^^ r)).getLsbD 7 := by
    rw [signedOverflow, hmask, BitVec.and_twoPow]
    cases ((a ^^^ r) &&& (m ^^^ r)).getLsbD 7 <;> rfl
  rw [hbit, BitVec.getLsbD_and, BitVec.getLsbD_xor, BitVec.getLsbD_xor]
  cases a.getLsbD 7 <;> cases m.getLsbD 7 <;> cases r.getLsbD 7 <;> decide

/-- ADC that draws no free value writes a result byte and a carry, and V, Z and N from the result. -/
theorem exec_adc_of_not_free {i : Instr} {s : State} {m r : Byte} {c : Bool} (ho : i.operation = .adc) (hm : OperandIs s i m)
    (hfree : adcIsFree s m = false) (hval : adcValue s m = addResult s.a m r c) :
    ∃ v z n : Bool,
      exec i s = .next { s with a := r, p := { s.p with c := c, v := v, z := z, n := n }, pc := nextPc s i } ∧
      (v = true ↔ s.a.getLsbD 7 = m.getLsbD 7 ∧ r.getLsbD 7 ≠ s.a.getLsbD 7) ∧
      (z = true ↔ r.toNat = 0) ∧ n = r.getLsbD 7 := by
  refine ⟨signedOverflow s.a m r, decide (r = 0#8), r.getLsbD 7, ?_, signedOverflow_iff s.a m r, ?_, rfl⟩
  · rw [exec_of_operandIs (op := adcOp) (by rw [ho]; rfl) hm, adcOp_eq, hfree, hval, Flags.setAdd_eq]
    rfl
  · rw [decide_eq_zero, decide_eq_true_iff]

/-! Binary ADC. -/

theorem adcIsFree_of_binary {s : State} (m : Byte) (hd : s.p.d = false) : adcIsFree s m = false := by
  simp [adcIsFree, Flags.read, hd]

theorem adcValue_of_binary {s : State} (m : Byte) (hd : s.p.d = false) : adcValue s m = adcBinary s.a m s.p.c := by
  simp [adcValue, adcIsFree_of_binary m hd, Flags.read, hd]

/-- Settles O16: the low 8 bits of the sum, and the carry out of them. -/
theorem adcBinaryResult : Obligations.AdcBinaryResult := by
  intro i s m ho hm hd
  obtain ⟨v, z, n, hx, hv, hz, hn⟩ := exec_adc_of_not_free ho hm (adcIsFree_of_binary m hd) (adcValue_of_binary m hd)
  exact ⟨_, _, v, z, n, hx, BitVec.toNat_ofNat _ 8, decide_eq_true_iff, hv, hz, hn⟩

/-- The sign test on the low 8 bits of a sum with carry says that the signed sum does not fit in a signed byte. -/
theorem signTest_iff {a m r : Byte} {c : Nat} (hc : c ≤ 1) (hr : r.toNat = (a.toNat + m.toNat + c) % 256) :
    (a.getLsbD 7 = m.getLsbD 7 ∧ r.getLsbD 7 ≠ a.getLsbD 7) ↔
      a.toInt + m.toInt + c < -128 ∨ a.toInt + m.toInt + c > 127 := by
  have ha := a.isLt
  have hm := m.isLt
  simp only [getLsbD_seven, BitVec.toInt_eq_toNat_cond, hr, ne_eq, decide_eq_decide]
  split <;> split <;> omega

/-- Settles O17: the sign test of the binary sum is its signed overflow. -/
theorem adcOverflowIsTheSignedOne : Obligations.AdcOverflowIsTheSignedOne := by
  intro i s m ho hm hd
  obtain ⟨r, c, v, z, n, hx, hr, -, hv, -, -⟩ := adcBinaryResult i s m ho hm hd
  exact ⟨_, hx, hv.trans (signTest_iff s.p.c.toNat_le hr)⟩

/-! Decimal ADC (decision D9). -/

/-- Decimal ADC is computed under the default of DEC_INVALID, and under either value of it for valid BCD operands. -/
theorem adcIsFree_of_computed {s : State} {m : Byte}
    (h : s.cfg.decInvalid = .totalAlgorithm ∨ (validBcd s.a = true ∧ validBcd m = true)) : adcIsFree s m = false := by
  rcases h with h | ⟨ha, hm⟩
  · simp [adcIsFree, h]
  · simp [adcIsFree, ha, hm]

theorem adcValue_of_decimal {s : State} {m : Byte} (hd : s.p.d = true) (hfree : adcIsFree s m = false) :
    adcValue s m = adcDecimal s.a m s.p.c := by
  simp [adcValue, hfree, Flags.read, hd]

theorem decimalDigit_digit (sum : Nat) : (decimalDigit sum).1 = if sum > 9 then sum + 6 else sum := by
  unfold decimalDigit
  split <;> rfl

theorem decimalDigit_carry (sum : Nat) : (decimalDigit sum).2 = if sum > 9 then 1 else 0 := by
  unfold decimalDigit
  split <;> rfl

theorem decimalDigit_carry_eq_one_iff (sum : Nat) : (decimalDigit sum).2 = 1 ↔ sum > 9 := by
  rw [decimalDigit_carry]
  split <;> simp [*]

/-- Settles O18: the two digits with their corrections, packed, and the carry of the high one. -/
theorem adcDecimalResult : Obligations.AdcDecimalResult := by
  rintro i s m ho hm hd hcomputed lo c4 hi rfl rfl rfl
  have hfree := adcIsFree_of_computed hcomputed
  obtain ⟨v, z, n, hx, hv, hz, hn⟩ := exec_adc_of_not_free ho hm hfree (adcValue_of_decimal hd hfree)
  refine ⟨_, _, v, z, n, hx, ?_, ?_, hv, hz, hn⟩
  · rw [BitVec.toNat_ofNat, decimalDigit_digit, decimalDigit_digit, decimalDigit_carry]
    omega
  · rw [decide_eq_true_iff, decimalDigit_carry_eq_one_iff, decimalDigit_carry]

/-- A byte is valid BCD when it packs two decimal digits. -/
theorem validBcd_iff (v : Byte) : validBcd v = true ↔ v.toNat % 16 ≤ 9 ∧ v.toNat / 16 ≤ 9 := by
  simp [validBcd]

/-- A digit sum of two decimal digits and a carry, corrected by 6 above 9, is a decimal digit and its carry. -/
theorem correctedSum_digit_carry {sum : Nat} (h : sum ≤ 19) :
    (if sum > 9 then sum + 6 else sum) % 16 ≤ 9 ∧
      10 * (if sum > 9 then 1 else 0) + (if sum > 9 then sum + 6 else sum) % 16 = sum := by
  split <;> omega

/-- Settles O19: each corrected digit sum is a decimal digit and its carry, and the result packs the two digits. -/
theorem adcDecimalIsDecimalAddition : Obligations.AdcDecimalIsDecimalAddition := by
  intro i s m ho hm hd hva hvm
  obtain ⟨lo, hlo⟩ : ∃ lo, lo = s.a.toNat % 16 + m.toNat % 16 + s.p.c.toNat := ⟨_, rfl⟩
  obtain ⟨hi, hhi⟩ : ∃ hi, hi = s.a.toNat / 16 + m.toNat / 16 + if lo > 9 then 1 else 0 := ⟨_, rfl⟩
  obtain ⟨r, c, v, z, n, hx, hr, hc, -⟩ := adcDecimalResult i s m ho hm hd (.inr ⟨hva, hvm⟩) lo _ hi hlo rfl hhi
  obtain ⟨halo, hahi⟩ := (validBcd_iff s.a).mp hva
  obtain ⟨hmlo, hmhi⟩ := (validBcd_iff m).mp hvm
  have hcarry := s.p.c.toNat_le
  obtain ⟨hlodigit, hlosum⟩ := correctedSum_digit_carry (sum := lo) (by omega)
  obtain ⟨hhidigit, hhisum⟩ := correctedSum_digit_carry (sum := hi) (by split at hhi <;> omega)
  have hcout : c.toNat = if hi > 9 then 1 else 0 := by simp only [← hc, Bool.toNat, Bool.cond_eq_ite]
  refine ⟨_, hx, (validBcd_iff r).mpr ⟨by omega, by omega⟩, ?_⟩
  simp only [bcdValue, hcout]
  omega

/-! An operand that cannot be read (41_alu_read_ops.md R100, 42_shift.md R111). -/

theorem takesOperand_iff (o : Operation) : takesOperand o ↔ (∃ op, readOpOf o = some op) ∨ o = .asl := by
  cases o <;> simp [takesOperand, readOpOf]

/-- ASL on memory raises the fault of its read before it writes anything. -/
theorem shiftMem_of_loadMem_error {m : MemMode} {s : State} {e : CpuError} (h : s.loadMem m = .error e) :
    shiftMem m s = .next (s.raise e) := by
  rcases State.loadMem_error.mp h with hea | ⟨ea, hea, hread⟩
  · simp only [shiftMem, hea]
  · simp only [shiftMem, hea, hread]

/-- An instruction whose operand byte cannot be read halts on that read's fault, and nothing but RunState changes. -/
theorem exec_of_loadMem_error {i : Instr} {s : State} {mode : MemMode} {e : CpuError} (ho : takesOperand i.operation)
    (hmode : i.mode = .mem mode) (h : s.loadMem mode = .error e) : exec i s = .next (s.raise e) := by
  rcases (takesOperand_iff i.operation).mp ho with ⟨op, hop⟩ | hasl
  · rw [exec_of_load hop hmode, loadOp, h]
  · rw [exec_of_shiftMem hasl hmode, shiftMem_of_loadMem_error h]

/-- The two addresses of a pointer are those that the machine reads for an indirect mode. -/
theorem pointerAt_iff {s : State} {mode : MemMode} {pl ph : Addr} :
    PointerAt s mode pl ph ↔ ∃ zp, s.pointerOf mode = some zp ∧ pl = zext16 zp ∧ ph = s.pointerHigh zp := by
  have hlow (zp : Byte) : pl.toNat = zp.toNat ↔ pl = zext16 zp := by
    rw [← BitVec.toNat_inj, toNat_zext16]
  have hhigh (zp : Byte) : ph.toNat = (if s.cfg.zpPtrWrap then (zp.toNat + 1) % 0x100 else zp.toNat + 1) ↔
      ph = s.pointerHigh zp := by
    rw [← BitVec.toNat_inj, State.toNat_pointerHigh]
  have hindex (v zp : Byte) : zp.toNat = (v.toNat + s.x.toNat) % 0x100 ↔ v + s.x = zp := by
    rw [← BitVec.toNat_inj, BitVec.toNat_add, eq_comm]
  unfold PointerAt
  simp only [hlow, hhigh, hindex]
  cases mode <;> simp [State.pointerOf]

/-- Resolution fails exactly with the first byte of the pointer that cannot be read, the low one before the high one. -/
theorem effectiveAddress_error_iff {s : State} {mode : MemMode} {e : CpuError} :
    s.effectiveAddress mode = .error e ↔ ∃ pl ph, PointerAt s mode pl ph ∧
      (s.readByte pl = .error e ∨ ∃ lo, s.readByte pl = .ok lo ∧ s.readByte ph = .error e) := by
  rw [State.effectiveAddress_error]
  constructor
  · rintro ⟨zp, hzp, h⟩
    rw [State.readPointer_eq, State.readPair_error] at h
    exact ⟨_, _, pointerAt_iff.mpr ⟨zp, hzp, rfl, rfl⟩, h⟩
  · rintro ⟨pl, ph, hptr, h⟩
    obtain ⟨zp, hzp, rfl, rfl⟩ := pointerAt_iff.mp hptr
    exact ⟨zp, hzp, by rw [State.readPointer_eq, State.readPair_error]; exact h⟩

/-- Settles O29: a read that fails is of an unmapped byte, and the first that fails is the one raised. -/
theorem unreadableOperandHalts : Obligations.UnreadableOperandHalts := by
  intro i s mode ho hmode
  have hresolve {e} (h : s.effectiveAddress mode = .error e) : exec i s = .next (s.raise e) :=
    exec_of_loadMem_error ho hmode (State.loadMem_error.mpr (.inl h))
  have hread {ea e} (hea : s.effectiveAddress mode = .ok ea) (h : s.readByte ea = .error e) :
      exec i s = .next (s.raise e) :=
    exec_of_loadMem_error ho hmode (State.loadMem_error.mpr (.inr ⟨ea, hea, h⟩))
  refine ⟨fun pl ph hptr => ⟨fun e hlow => ?_, fun lo e hlow hhigh => ?_⟩, fun ea e hea h => ?_, fun e h => ?_⟩
  · exact ⟨(State.readByte_error hlow).1, hresolve (effectiveAddress_error_iff.mpr ⟨pl, ph, hptr, .inl hlow⟩)⟩
  · exact ⟨(State.readByte_error hhigh).1,
      hresolve (effectiveAddress_error_iff.mpr ⟨pl, ph, hptr, .inr ⟨lo, hlow, hhigh⟩⟩)⟩
  · exact ⟨(State.readByte_error h).1, hread hea h⟩
  · exact ⟨hresolve h, effectiveAddress_error_iff.mp h⟩

end Sys2Proof.Machine

/-! PROOFS. ASL (42_shift.md R110, R111): what it answers on A, on a byte of a block and on a cartridge address. -/

namespace Sys2Proof.Machine

open Sys2Proof.Claims

/-! The shifted byte as a number, its bit 7, and the flags set from it. -/

theorem toNat_shiftLeft1 (m : Byte) : (shiftLeft1 m).toNat = m.toNat * 2 % 256 := BitVec.toNat_ofNat _ 8

/-- The model's doubling is the library's shift by one. -/
theorem shiftLeft1_eq_shiftLeft (m : Byte) : shiftLeft1 m = m <<< 1 := by
  apply BitVec.eq_of_toNat_eq
  rw [toNat_shiftLeft1, BitVec.toNat_shiftLeft, Nat.shiftLeft_eq]

/-- The result's sign bit is the operand's bit 6. -/
theorem getLsbD_shiftLeft1_seven (m : Byte) : (shiftLeft1 m).getLsbD 7 = m.getLsbD 6 := by
  rw [shiftLeft1_eq_shiftLeft, BitVec.getLsbD_shiftLeft]
  rfl

/-- The flags after ASL in terms of the operand's bits and the result's number. -/
theorem Flags.setShift_eq_bits (p : Flags) (m : Byte) :
    p.setShift m =
      { p with c := m.getLsbD 7, z := decide ((shiftLeft1 m).toNat = 0), n := m.getLsbD 6 } := by
  rw [Flags.setShift_eq, decide_eq_zero, getLsbD_shiftLeft1_seven]

/-! ASL on memory by the outcome of its store. -/

theorem shiftMem_of_writeByte_ok {mode : MemMode} {s t : State} {ea : Addr} {m : Byte}
    (hea : s.effectiveAddress mode = .ok ea) (hread : s.readByte ea = .ok m)
    (hwrite : s.writeByte ea (shiftLeft1 m) = .ok t) :
    shiftMem mode s = .next ((t.setFlags (s.p.setShift m)).advance (AddressingMode.mem mode).len) := by
  simp only [shiftMem, hea, hread, hwrite]

theorem shiftMem_of_writeByte_error {mode : MemMode} {s : State} {ea : Addr} {m : Byte} {e : CpuError}
    (hea : s.effectiveAddress mode = .ok ea) (hread : s.readByte ea = .ok m)
    (hwrite : s.writeByte ea (shiftLeft1 m) = .error e) : shiftMem mode s = .next (s.raise e) := by
  simp only [shiftMem, hea, hread, hwrite]

/-- Settles O25: the store in the block succeeds, its read-back and its frame are those of one byte write, and the flags and
`pc` are written on top of it. -/
theorem aslMemoryResult : Obligations.AslMemoryResult := by
  rintro i s mode ea m ho hmode hea hread ⟨o, hblock⟩
  obtain ⟨q, hwrite⟩ := State.writeByte_ok_of_block (shiftLeft1 m) hblock
  obtain ⟨A, B, hq⟩ := State.writeByte_frame hwrite
  have hpc : (q.setFlags (s.p.setShift m)).pc = s.pc := by rw [State.setFlags_pc, hq]
  refine ⟨shiftLeft1 m, A, B, (q.setFlags (s.p.setShift m)).setPc (nextPc s i), toNat_shiftLeft1 m, ?_, ?_, ?_, ?_⟩
  · rw [hq, Flags.setShift_eq_bits]
    rfl
  · rw [exec_of_shiftMem ho hmode, shiftMem_of_writeByte_ok hea hread hwrite, State.advance_len hmode hpc]
  · rw [State.readByte_setPc, State.readByte_setFlags, State.readByte_writeByte_same hwrite]
  · intro a ha
    rw [State.readByte_setPc, State.readByte_setFlags, State.readByte_writeByte_other hwrite ha]

/-- Settles O24: A takes the shifted byte, and the flags are those of the shift. -/
theorem aslAccumulatorResult : Obligations.AslAccumulatorResult := by
  intro s
  have hexec : exec .aslAcc s = execAslAcc s := rfl
  refine ⟨shiftLeft1 s.a, toNat_shiftLeft1 s.a, ?_⟩
  rw [hexec, execAslAcc, Flags.setShift_eq_bits]
  rfl

/-- Settles O30: the cartridge answers the read and refuses the store, and ASL raises the store's fault. -/
theorem aslOnTheCartridgeHalts : Obligations.AslOnTheCartridgeHalts := by
  intro i s mode ea o ho hmode hea hcart
  rw [exec_of_shiftMem ho hmode,
    shiftMem_of_writeByte_error hea (State.readByte_of_cart hcart) (State.writeByte_of_cart _ hcart)]
  rfl

end Sys2Proof.Machine

/-! PROOFS. The branches (43_branches.md R115 to R123): where a branch moves `pc`, and that it writes nothing else. -/

namespace Sys2Proof.Machine

open Sys2Proof.Claims

/-- A displacement moves an address by its signed value, modulo 0x10000 (43_branches.md R115). -/
theorem toNat_add_sext16 (w : Addr) (v : Byte) : ((w + sext16 v).toNat : Int) = (w.toNat + v.toInt) % 0x10000 := by
  have hsum : w + sext16 v = BitVec.ofInt 16 (w.toNat + v.toInt) := by
    rw [BitVec.ofInt_add, BitVec.ofInt_natCast, BitVec.ofNat_toNat, BitVec.setWidth_eq]
    rfl
  rw [hsum, BitVec.toNat_ofInt]
  omega

/-- Where a branch goes, over the integers: the two sums modulo 0x10000 are one. -/
theorem toNat_branch_target (pc : Addr) (taken : Bool) (d : Byte) :
    ((if taken then pc + 2#16 + sext16 d else pc + 2#16).toNat : Int) =
      ((pc.toNat : Int) + 2 + if taken then d.toInt else 0) % 0x10000 := by
  have hnext : (pc + 2#16).toNat = (pc.toNat + 2) % 0x10000 := BitVec.toNat_add pc 2#16
  cases taken with
  | false =>
    rw [if_neg Bool.false_ne_true, if_neg Bool.false_ne_true, hnext]
    omega
  | true =>
    rw [if_pos rfl, if_pos rfl, toNat_add_sext16, hnext]
    omega

/-- An instruction that has a branch predicate is of Relative mode. -/
theorem mode_relative_of_branchCondition {p : Flags} {i : Instr} {taken : Bool}
    (h : branchCondition p i.operation = some taken) : ∃ d, i.mode = .relative d := by
  cases i <;> cases h <;> exact ⟨_, rfl⟩

/-- Settles O26: the machine tests the predicate of decision D15, and a branch writes `pc` alone. -/
theorem branchResult : Obligations.BranchResult := by
  intro i s taken h
  obtain ⟨d, hmode⟩ := mode_relative_of_branchCondition h
  have ht : takenOf s.p i.operation = some taken := (takenOf_eq_branchCondition s.p i.operation).trans h
  exact ⟨d, _, hmode, toNat_branch_target s.pc taken d, (exec_of_relative ht hmode).trans (branchOp_eq taken d s)⟩

end Sys2Proof.Machine

/-! PROOFS. The flag clears (44_flag_clear.md R130 to R133): each writes its one flag and `pc`. -/

namespace Sys2Proof.Machine

open Sys2Proof.Claims

/-- An instruction whose operation clears flag `f` writes `f` and moves `pc` by its one byte (44_flag_clear.md, head note:
all four are of Implied mode). -/
theorem exec_of_clearFlag {i : Instr} {f : FlagName} (ho : impliedOpOf i.operation = some (clearFlag f)) (s : State) :
    exec i s = .next ((s.setFlags (s.p.write f false)).setPc (s.pc + 1#16)) := by
  rw [exec_of_implied ho]
  rfl

/-- Settles O27: each of the four clears the flag it names. -/
theorem flagClearResult : Obligations.FlagClearResult := by
  intro s
  refine ⟨?clc, ?cld, ?cli, ?clv⟩
  case clc => exact exec_of_clearFlag (f := .c) rfl s
  case cld => exact exec_of_clearFlag (f := .d) rfl s
  case cli => exact exec_of_clearFlag (f := .i) rfl s
  case clv => exact exec_of_clearFlag (f := .v) rfl s

end Sys2Proof.Machine

/-! PROOFS. INX, INY, DEX and DEY (45_index_incdec.md R136 to R140): each writes its register, Z, N and `pc`. -/

namespace Sys2Proof.Machine

open Sys2Proof.Claims

/-- An instruction whose operation puts a value in X writes X, Z, N from it, and moves `pc` by its one byte. -/
theorem exec_of_putX {i : Instr} {value : State → Byte}
    (ho : impliedOpOf i.operation = some fun s => putX s (value s)) (s : State) :
    exec i s = .next { s with
      x := value s
      p := { s.p with z := decide ((value s).toNat = 0), n := (value s).getLsbD 7 }
      pc := s.pc + 1#16 } := by
  rw [exec_of_implied ho, impliedOp, putX, Flags.setZN_eq, decide_eq_zero]
  rfl

/-- An instruction whose operation puts a value in Y writes Y, Z, N from it, and moves `pc` by its one byte. -/
theorem exec_of_putY {i : Instr} {value : State → Byte}
    (ho : impliedOpOf i.operation = some fun s => putY s (value s)) (s : State) :
    exec i s = .next { s with
      y := value s
      p := { s.p with z := decide ((value s).toNat = 0), n := (value s).getLsbD 7 }
      pc := s.pc + 1#16 } := by
  rw [exec_of_implied ho, impliedOp, putY, Flags.setZN_eq, decide_eq_zero]
  rfl

/-- Taking 1 from a byte is adding 255 modulo 256: 0 goes to 255 (45_index_incdec.md R136). -/
theorem toNat_sub_one (v : Byte) : (v - 1#8).toNat = (v.toNat + 255) % 256 := by
  rw [Nat.add_comm]
  exact BitVec.toNat_sub v 1#8

/-- Settles O28: each of the four puts its register's value plus or minus 1 back in the register. -/
theorem indexRegisterResult : Obligations.IndexRegisterResult := by
  intro s
  refine ⟨⟨s.x + 1#8, ?inxValue, ?inx⟩, ⟨s.y + 1#8, ?inyValue, ?iny⟩,
    ⟨s.x - 1#8, ?dexValue, ?dex⟩, ⟨s.y - 1#8, ?deyValue, ?dey⟩⟩
  case inxValue => exact BitVec.toNat_add s.x 1#8
  case inyValue => exact BitVec.toNat_add s.y 1#8
  case dexValue => exact toNat_sub_one s.x
  case deyValue => exact toNat_sub_one s.y
  case inx => exact exec_of_putX (i := .inx) (value := fun s => s.x + 1#8) rfl s
  case iny => exact exec_of_putY (i := .iny) (value := fun s => s.y + 1#8) rfl s
  case dex => exact exec_of_putX (i := .dex) (value := fun s => s.x - 1#8) rfl s
  case dey => exact exec_of_putY (i := .dey) (value := fun s => s.y - 1#8) rfl s

end Sys2Proof.Machine

/-! PROOFS. The errors and the moves of the host (60_exceptions.md): what halts the core and what the halt leaves as it was,
that no step is taken outside Running, that the host keeps the machine's invariant, and how `run_until` goes on. -/

namespace Sys2Proof.Machine

open Sys2Proof.Claims

/-! The moves of the host (R168). -/

/-- `set_flag`, where it is not refused, writes P alone. -/
theorem State.setFlag_frame {s t : State} {mask : Byte} {v : Bool} (h : s.setFlag mask v = .next t) :
    ∃ p, t = s.setFlags p := by
  unfold State.setFlag at h
  split at h <;> cases h
  exact ⟨_, rfl⟩

/-- Settles O47: a step keeps both; the reset sequence and `set_flag` write neither the configuration nor a block. -/
theorem everyHostMoveKeepsTheInvariant : Obligations.EveryHostMoveKeepsTheInvariant := by
  intro move s t hs h
  cases move with
  | reset =>
    rcases State.resetSequence_cases h with ⟨v, -, -, rfl⟩ | ⟨e, -, rfl⟩
    · exact ⟨hs.congr rfl rfl rfl, rfl⟩
    · exact ⟨(State.inv_raise s e).mpr hs, rfl⟩
  | step =>
    obtain ⟨-, -, hcfg, -⟩ := noStepChangesInertState s t h
    exact ⟨everyStepKeepsTheInvariant s t hs h, hcfg⟩
  | setFlag mask v =>
    obtain ⟨p, rfl⟩ := State.setFlag_frame h
    exact ⟨hs.congr rfl rfl rfl, rfl⟩

/-! The causes of a halt (R150, R152, R153). -/

/-- A fetch fails on an opcode byte without a record or on a byte that it comes to read and cannot. -/
theorem State.fetch_error_cause {s : State} {e : CpuError} (h : s.fetch = .error e) :
    (∃ b, s.readByte s.pc = .ok b ∧ decodeOpcode s.cfg.opcodeTable b = none ∧ e = .invalidOpcode b s.pc) ∨
      ∃ a, FetchReads s a ∧ s.readByte a = .error e := by
  rcases State.fetch_error h with hop | ⟨b, hop, ⟨hd, he⟩ | ⟨r, hd, ⟨hf, h1⟩ | ⟨hf, b1, h1, h2⟩⟩⟩
  · exact .inr ⟨_, .inl rfl, hop⟩
  · exact .inl ⟨b, hop, hd, he⟩
  · exact .inr ⟨_, .inr ⟨b, r, hop, hd, .inl ⟨hf, rfl⟩⟩, h1⟩
  · exact .inr ⟨_, .inr ⟨b, r, hop, hd, .inr ⟨hf, rfl, b1, h1⟩⟩, h2⟩

/-- An operand cannot be read because of a byte that the instruction comes to read, of the pointer or at the effective
address. -/
theorem State.loadMem_error_cause {s : State} {mode : MemMode} {e : CpuError} (h : s.loadMem mode = .error e) :
    ∃ a, OperandReads s mode a ∧ s.readByte a = .error e := by
  rcases State.loadMem_error.mp h with hea | ⟨ea, hea, hread⟩
  · obtain ⟨pl, ph, hptr, hlow | ⟨lo, hlow, hhigh⟩⟩ := effectiveAddress_error_iff.mp hea
    · exact ⟨pl, .inl ⟨pl, ph, hptr, .inl rfl⟩, hlow⟩
    · exact ⟨ph, .inl ⟨pl, ph, hptr, .inr ⟨rfl, lo, hlow⟩⟩, hhigh⟩
  · exact ⟨ea, .inr hea, hread⟩

/-- An instruction halts a running core on an operand that cannot be read, or as ASL on a cartridge address. -/
theorem exec_halt_cause {i : Instr} {s t : State} {e : CpuError} (hrun : s.run = .running) (h : exec i s = .next t)
    (hhalt : t.run = .halted e) :
    ∃ mode, i.mode = .mem mode ∧
      (takesOperand i.operation ∧ s.loadMem mode = .error e ∨
        ∃ a o, i.operation = .asl ∧ s.effectiveAddress mode = .ok a ∧ regionOf s.cfg a = .cart o ∧
          e = .busFault a .write .readOnly) := by
  rcases exec_cases i s with ⟨f, mode, hx, hmode, hcause⟩ | ⟨u, hx, hkept, -⟩ <;> rw [hx] at h <;> cases h
  case inl =>
    cases hhalt
    refine ⟨mode, hmode, hcause.imp_left ?_⟩
    rintro ⟨hop, hload⟩
    exact ⟨(takesOperand_iff _).mpr (hop.imp_left Option.isSome_iff_exists.mp), hload⟩
  case inr =>
    rw [hkept, hrun] at hhalt
    cases hhalt

/-- Settles O51: the step halts by the fetch or by the fetched instruction, and a read fails on an unmapped address alone. -/
theorem onlyTheseErrorsHalt : Obligations.OnlyTheseErrorsHalt := by
  intro s t e h hhalt
  obtain ⟨hrun, ⟨f, hfetch, rfl⟩ | ⟨i, hfetch, hx⟩⟩ := step_cases h
  · cases hhalt
    rcases State.fetch_error_cause hfetch with hinvalid | ⟨a, hreads, hread⟩
    · exact .inl hinvalid
    · obtain ⟨he, hunmapped⟩ := State.readByte_error hread
      exact .inr (.inl ⟨a, hfetch, hreads, hunmapped, he⟩)
  · obtain ⟨mode, hmode, ⟨htakes, hload⟩ | ⟨a, o, hasl, hea, hcart, he⟩⟩ := exec_halt_cause hrun hx hhalt
    · obtain ⟨a, hreads, hread⟩ := State.loadMem_error_cause hload
      obtain ⟨he, hunmapped⟩ := State.readByte_error hread
      exact .inr (.inr (.inl ⟨i, mode, a, hfetch, htakes, hmode, hload, hreads, hunmapped, he⟩))
    · exact .inr (.inr (.inr ⟨i, mode, a, o, hfetch, hasl, hmode, hea, hcart, he⟩))

/-! Which error the fetch reports, in the order of its reads (R152, R159). -/

theorem State.fetch_of_opcode_error {s : State} {e : CpuError} (h : s.readByte s.pc = .error e) : s.fetch = .error e := by
  simp only [State.fetch, h]

/-- The byte without a record is reported before any operand byte is read. -/
theorem State.fetch_of_no_record {s : State} {b : Byte} (hop : s.readByte s.pc = .ok b)
    (hd : decodeOpcode s.cfg.opcodeTable b = none) : s.fetch = .error (.invalidOpcode b s.pc) := by
  simp only [State.fetch, hop, hd]

theorem State.fetch_of_operand1_error {s : State} {b : Byte} {r : OpcodeRow} {e : CpuError}
    (hop : s.readByte s.pc = .ok b) (hd : decodeOpcode s.cfg.opcodeTable b = some r) (hf : r.mode.format ≠ .f1)
    (h1 : s.readByte (s.pc + 1#16) = .error e) : s.fetch = .error e := by
  cases hformat : r.mode.format with
  | f1 => exact absurd hformat hf
  | f2 => simp only [State.fetch, hop, hd, hformat, h1]
  | f3 => simp only [State.fetch, hop, hd, hformat, h1]

theorem State.fetch_of_operand2_error {s : State} {b b1 : Byte} {r : OpcodeRow} {e : CpuError}
    (hop : s.readByte s.pc = .ok b) (hd : decodeOpcode s.cfg.opcodeTable b = some r) (hf : r.mode.format = .f3)
    (h1 : s.readByte (s.pc + 1#16) = .ok b1) (h2 : s.readByte (s.pc + 2#16) = .error e) : s.fetch = .error e := by
  simp only [State.fetch, hop, hd, hf, h1, h2]

/-- Settles O35: the fetch fails on the byte, and the step raises that error. -/
theorem invalidOpcodeHalts : Obligations.InvalidOpcodeHalts := by
  intro s b hrun hop hd
  exact step_of_fetch_error hrun (State.fetch_of_no_record hop hd)

/-- Settles O36: the fetch fails on its first unmapped byte, and the step raises that error. -/
theorem fetchFaultHalts : Obligations.FetchFaultHalts := by
  intro s hrun
  refine ⟨?opcode, ?operand1, ?operand2⟩
  case opcode =>
    intro hunmapped
    exact step_of_fetch_error hrun (State.fetch_of_opcode_error (State.readByte_unmapped hunmapped))
  case operand1 =>
    intro b r hop hd hf hunmapped
    exact step_of_fetch_error hrun (State.fetch_of_operand1_error hop hd hf (State.readByte_unmapped hunmapped))
  case operand2 =>
    intro b b1 r hop hd hf h1 hunmapped
    exact step_of_fetch_error hrun (State.fetch_of_operand2_error hop hd hf h1 (State.readByte_unmapped hunmapped))

/-! Outside Running (R161, 40_step_and_addressing.md R75). -/

theorem step_of_halted {s : State} {e : CpuError} (h : s.run = .halted e) : step s = .fault (.halted e) := by
  simp only [step, h]

theorem step_of_reset {s : State} (h : s.run = .reset) : step s = .refused .stepBeforeReset := by
  simp only [step, h]

/-- Settles O37: the step tests RunState before the fetch. -/
theorem noStepOutsideRunning : Obligations.NoStepOutsideRunning :=
  fun _ => ⟨fun _ => step_of_halted, step_of_reset⟩

/-! One round of `run_until` (R170): the predicate, then what the step answers. -/

section RunUntil

variable {pred : RegisterFile → Bool} {s : State}

theorem State.runUntil_of_holds (h : pred s.registers = true) (k : Nat) : State.runUntil pred k s = .holds s := by
  cases k <;> simp only [State.runUntil, h, if_true]

theorem State.runUntil_of_running {t : State} (hp : pred s.registers = false) (hstep : step s = .next t)
    (hrun : t.run = .running) (k : Nat) : State.runUntil pred (k + 1) s = State.runUntil pred k t := by
  simp [State.runUntil, hp, hstep, hrun]

theorem State.runUntil_of_halting {t : State} {e : CpuError} (hp : pred s.registers = false) (hstep : step s = .next t)
    (hhalt : t.run = .halted e) (k : Nat) : State.runUntil pred (k + 1) s = .error e t := by
  simp [State.runUntil, hp, hstep, hhalt]

theorem State.runUntil_of_fault {e : CpuError} (hp : pred s.registers = false) (hstep : step s = .fault (.halted e))
    (k : Nat) : State.runUntil pred (k + 1) s = .error e s := by
  simp [State.runUntil, hp, hstep]

theorem State.runUntil_of_refused {r : Refusal} (hp : pred s.registers = false) (hstep : step s = .refused r)
    (k : Nat) : State.runUntil pred (k + 1) s = .refused r := by
  simp [State.runUntil, hp, hstep]

end RunUntil

/-- Settles O44: the clauses are the rounds of the loop, the last two with what a step answers outside Running. -/
theorem runUntilTestsThenSteps : Obligations.RunUntilTestsThenSteps := by
  intro pred k s
  refine ⟨fun hp => State.runUntil_of_holds hp k, ?steps, ?outsideRunning⟩
  case steps =>
    intro hp t hstep
    exact ⟨fun hrun => State.runUntil_of_running hp hstep hrun k,
      fun e hhalt => State.runUntil_of_halting hp hstep hhalt k⟩
  case outsideRunning =>
    intro hp
    exact ⟨fun e hhalt => State.runUntil_of_fault hp (step_of_halted hhalt) k,
      fun hreset => State.runUntil_of_refused hp (step_of_reset hreset) k⟩

end Sys2Proof.Machine

/-! PROOFS. The reset sequence and progress (70_reset_and_hazards.md): what reset does by the outcome of the vector read, that
the read cannot fault under the constraints of 00_scope.md R5, and that a running core always answers a next state. -/

namespace Sys2Proof.Machine

open Sys2Proof.Claims

/-! The reset sequence where the stores are in order, by the outcome of the vector read (R180 to R182). -/

theorem State.resetSequence_of_wf {s : State} {v : Addr} (hwf : Cfg.wf s.cfg = true)
    (hr : s.readWord s.cfg.resetVector = .ok v) : s.resetSequence = .next ((s.setPc v).setRun .running) := by
  simp only [State.resetSequence, Cfg.storesOk_of_wf hwf, hr, hwf, if_true]

theorem State.resetSequence_of_vector_error {s : State} {e : CpuError} (hstores : Cfg.storesOk s.cfg = true)
    (hr : s.readWord s.cfg.resetVector = .error e) : s.resetSequence = .next (s.raise e) := by
  simp only [State.resetSequence, hstores, hr, if_true]

/-- Settles O39: under the constraints a vector that reads is loaded. -/
theorem resetLoadsTheVector : Obligations.ResetLoadsTheVector := by
  intro s v hwf hr
  exact State.resetSequence_of_wf hwf hr

/-- Settles O40: the fault of the vector read is raised, and that writes RunState alone. -/
theorem resetVectorFaultHalts : Obligations.ResetVectorFaultHalts := by
  intro s e hstores hr
  exact State.resetSequence_of_vector_error hstores hr

/-! The vector under the constraints of 00_scope.md R5: both of its bytes are bytes of the image. -/

theorem Cfg.vector_inRange_of_wf {c : Cfg} (h : Cfg.wf c = true) :
    inRange c.cart c.resetVector = true ∧ inRange c.cart (c.resetVector + 1#16) = true := by
  simp only [Cfg.wf, Bool.and_eq_true] at h
  obtain ⟨⟨-, hlo⟩, hhi⟩ := h
  exact ⟨hlo, hhi⟩

/-- A byte read in the cartridge range answers the image's byte (20_memory.md R32, R33). -/
theorem State.readByte_of_inRange_cart {s : State} {a : Addr} (h : inRange s.cfg.cart a = true) :
    s.readByte a = .ok (Memory.get s.cfg.image (a.toNat - s.cfg.cart.base)) :=
  State.readByte_of_cart (by simp only [regionOf, h, if_true])

/-- A word read whose two bytes lie in the cartridge range answers the image's word (20_memory.md R35). -/
theorem State.readWord_of_inRange_cart {s : State} {a : Addr} (hlo : inRange s.cfg.cart a = true)
    (hhi : inRange s.cfg.cart (a + 1#16) = true) :
    ∃ w, s.readWord a = .ok w ∧
      w.toNat = (Memory.get s.cfg.image ((a.toNat + 1) % 0x10000 - s.cfg.cart.base)).toNat * 256
        + (Memory.get s.cfg.image (a.toNat - s.cfg.cart.base)).toNat := by
  have hnext : (a + 1#16).toNat = (a.toNat + 1) % 0x10000 := BitVec.toNat_add a 1#16
  obtain ⟨hword, -, -⟩ := wordReadIsLittleEndian s a (a + 1#16) hnext
  rw [← hnext]
  exact hword _ _ (State.readByte_of_inRange_cart hlo) (State.readByte_of_inRange_cart hhi)

/-- Settles O42: both bytes of the vector lie in the cartridge range, so the vector reads, and it is loaded. -/
theorem resetCannotFaultOnAGoodConfiguration : Obligations.ResetCannotFaultOnAGoodConfiguration := by
  intro s hwf
  obtain ⟨hlo, hhi⟩ := Cfg.vector_inRange_of_wf hwf
  obtain ⟨v, hr, hv⟩ := State.readWord_of_inRange_cart hlo hhi
  exact ⟨v, resetLoadsTheVector s v hwf hr, hv⟩

/-- Settles O43: CFG0 meets the constraints, and the word at its vector is 0xF000. -/
theorem powerOnThenResetIsTheResetState : Obligations.PowerOnThenResetIsTheResetState := by
  have hwf : Cfg.wf Config.cfg0 = true := by decide
  have hr : (State.new Config.cfg0 zeroDraw).readWord Config.cfg0.resetVector = .ok 0xF000#16 := by decide
  exact resetLoadsTheVector (State.new Config.cfg0 zeroDraw) 0xF000#16 hwf hr

/-! Progress (R191, 60_exceptions.md R172). -/

/-- A step in Running answers a next state: it halts on the fetch's error, or runs the fetched instruction, and every
instruction answers one. -/
theorem step_next {s : State} (hrun : s.run = .running) : ∃ t, step s = .next t := by
  cases hf : s.fetch with
  | error e => exact ⟨_, step_of_fetch_error hrun hf⟩
  | ok i =>
    rw [step_of_fetch hrun hf]
    exact exec_next i s

/-- Settles O52: the next state has raised an error or is still running. -/
theorem everyRunningStepAnswers : Obligations.EveryRunningStepAnswers := by
  intro s hrun
  obtain ⟨t, hstep⟩ := step_next hrun
  refine ⟨t, hstep, ?_⟩
  rcases step_raise_or_running hstep with ⟨e, rfl⟩ | htrun
  · exact .inr ⟨e, rfl⟩
  · exact .inl htrun

end Sys2Proof.Machine

/-! PROOFS. Decimal ADC on invalid BCD (93_implementation_defined.md U1): under `anyValue` it draws one free value. -/

namespace Sys2Proof.Machine

open Sys2Proof.Claims

/-- Under `anyValue` decimal ADC is free where an operand is not valid BCD. -/
theorem adcIsFree_of_invalid {s : State} {m : Byte} (hd : s.p.d = true) (hany : s.cfg.decInvalid = .anyValue)
    (hinvalid : validBcd s.a = false ∨ validBcd m = false) : adcIsFree s m = true := by
  rcases hinvalid with ha | hm
  · simp [adcIsFree, Flags.read, hd, hany, ha]
  · simp [adcIsFree, Flags.read, hd, hany, hm]

theorem adcValue_of_free {s : State} {m : Byte} (hfree : adcIsFree s m = true) :
    adcValue s m = Config.freeDecimalAdc s.draws := by
  simp only [adcValue, hfree, if_true]

/-- Settles O20: the result and the flags are the free value's, and the counter moves past it. -/
theorem adcInvalidDecimalIsFree : Obligations.AdcInvalidDecimalIsFree := by
  intro i s m ho hm hd hany hinvalid
  have hfree := adcIsFree_of_invalid hd hany hinvalid
  refine ⟨_, _, _, _, _, ?_, rfl⟩
  rw [exec_of_operandIs (op := adcOp) (by rw [ho]; rfl) hm, adcOp_eq, adcValue_of_free hfree, hfree, Flags.setAdd_eq]
  rfl

end Sys2Proof.Machine
